-- ==== Sys2Proof/Word.lean ====
section
/-!
DEFINITION. The words of the XMODEM receiver: bytes, the 128-byte payload block, the STATUS vector's
type, and the four control-byte constants of `30_encoding.md` rule R81.
-/
namespace Sys2Proof

/-- An unsigned 8-bit value, bits 7 down to 0 (rule R10). -/
abbrev Byte := BitVec 8

/-- `BLOCK_SIZE`, fixed at 128 and no parameter of the model (rule R7). -/
abbrev blockSize : Nat := 128

/-- One payload: exactly 128 bytes, index 0 first (rules R38, R62). -/
abbrev Block := Vector Byte blockSize

/-- The 32-bit STATUS vector (rule R54). -/
abbrev StatusWord := BitVec 32

/-- SOH, "start of 128-byte block" (rule R81). -/
def soh : Byte := 0x01#8

/-- EOT, "end of transmission" (rule R81). -/
def eot : Byte := 0x04#8

/-- ACK, "block/EOT accepted" (rule R81). -/
def ack : Byte := 0x06#8

/-- NAK, "block rejected / request retransmit / initial handshake probe" (rule R81). -/
def nak : Byte := 0x15#8

end Sys2Proof
end

