-- ==== Sys2Proof/Config.lean ====
section
/-!
DEFINITION. The implementation parameters of `00_scope.md` rule R7. They are arguments of the model: `State`
carries them in a field that no step writes (rule R206), so every statement about all states holds for all of them.
-/
namespace Sys2Proof

/-- `TX_FAIL_POLICY`: what the receiver does when a byte write answers `TxFail` (rule R177; left OPEN by D11). -/
inductive TxFailPolicy where
  | ignore
  | fatal
  deriving DecidableEq, Repr

/-- The parameters a run is fixed with (rules R7, R206). The type holds `RETRY_CEILING`'s legal range, 0 to 254. -/
structure Params where
  retryCeiling : Fin 255
  txFailPolicy : TxFailPolicy
  deriving DecidableEq, Repr

/-- The value of this hardware, `RETRY_CEILING` = 20, and the default `TX_FAIL_POLICY` = `Ignore` (rule R7). -/
def Params.hardware : Params := { retryCeiling := 20, txFailPolicy := .ignore }

/-- `T_TIMEOUT` in seconds: a property of the Byte Channel that no rule of the model reads (rules R7, R211). -/
def Config.channelTimeoutSeconds : Nat := 1

end Sys2Proof
end

