-- ==== Sys2Proof/Syntax.lean ====
section
/-!
DEFINITION. The instruction set as syntax: the symbol formats of rule R80, the positions a symbol is decoded in
(rule R93), and one constructor of `Instr` for each of the 20 rows of `opcode_table.json`.
-/
namespace Sys2Proof

/-- The five symbol formats of rule R80. -/
inductive Format where
  | ctrl8
  | data8
  | rxto
  | tx8
  | blk128
  deriving DecidableEq, Repr

/-- A format's fixed length in bytes (rule R80); `rxto` is a response and has no byte. -/
def Format.length : Format → Nat
  | .ctrl8 => 1
  | .data8 => 1
  | .rxto => 0
  | .tx8 => 1
  | .blk128 => blockSize

/-- The position that says how a symbol is decoded: the contexts of rule R93, with `FR` split by the state that
tells its rows apart (`RX_HEADER`, `RX_PAYLOAD`, `RX_CHECKSUM`). -/
inductive Context where
  | hs
  | ac
  | frHdr
  | frData
  | frCksum
  | nc
  | tx
  | sk
  deriving DecidableEq, Repr

/-- One constructor per row of `opcode_table.json`, in the table's order. An operand is the row's byte where the
row fits more than one byte, and the payload on the SINK port for `SK.WRITE`. -/
inductive Instr where
  | hsSoh
  | hsEot
  | hsStray (b : Byte)
  | hsTimeout
  | acEot
  | acSoh
  | acOther (b : Byte)
  | frHdr (b : Byte)
  | frHdrTimeout
  | frData (b : Byte)
  | frDataTimeout
  | frCksum (b : Byte)
  | frCksumTimeout
  | ncSoh
  | ncEot
  | ncStray (b : Byte)
  | ncTimeout
  | txAck
  | txNak
  | skWrite (p : Block)
  deriving DecidableEq, Repr

/-- The context a row stands in (rule R93). -/
def Instr.context : Instr → Context
  | .hsSoh => .hs
  | .hsEot => .hs
  | .hsStray _ => .hs
  | .hsTimeout => .hs
  | .acEot => .ac
  | .acSoh => .ac
  | .acOther _ => .ac
  | .frHdr _ => .frHdr
  | .frHdrTimeout => .frHdr
  | .frData _ => .frData
  | .frDataTimeout => .frData
  | .frCksum _ => .frCksum
  | .frCksumTimeout => .frCksum
  | .ncSoh => .nc
  | .ncEot => .nc
  | .ncStray _ => .nc
  | .ncTimeout => .nc
  | .txAck => .tx
  | .txNak => .tx
  | .skWrite _ => .sk

/-- The format column of `opcode_table.json`. -/
def Instr.format : Instr → Format
  | .hsSoh => .ctrl8
  | .hsEot => .ctrl8
  | .hsStray _ => .ctrl8
  | .hsTimeout => .rxto
  | .acEot => .ctrl8
  | .acSoh => .ctrl8
  | .acOther _ => .ctrl8
  | .frHdr _ => .data8
  | .frHdrTimeout => .rxto
  | .frData _ => .data8
  | .frDataTimeout => .rxto
  | .frCksum _ => .data8
  | .frCksumTimeout => .rxto
  | .ncSoh => .ctrl8
  | .ncEot => .ctrl8
  | .ncStray _ => .ctrl8
  | .ncTimeout => .rxto
  | .txAck => .tx8
  | .txNak => .tx8
  | .skWrite _ => .blk128

end Sys2Proof
end

