-- ==== Sys2Proof/Machine/State.lean ====
section
/-!
DEFINITION. The state of the receiver as plain data: the registers of `10_state.md` rules R31 to R43, the transaction
in progress (R67, R207), the collaborators' and the host's inputs (R9, R53, R92), the histories (R61), and the
parameters (R206). Then why a step can stop, and the state after reset (R45).
-/
namespace Sys2Proof.Machine

/-- The controller states of rule R31. The last two are the reserved values 14 and 15, which no rule writes. -/
inductive Ctl where
  | idle
  | hsNak
  | hsRead
  | awaitCtrl
  | rxHeader
  | rxPayload
  | rxChecksum
  | validating
  | accWrite
  | accAck
  | rejNak
  | nextCtrl
  | complete
  | failed
  | reserved14
  | reserved15
  deriving DecidableEq, Repr

/-- The 2-bit `verdict` register's values (rule R41). -/
inductive Verdict where
  | none
  | accept
  | blockNumberMismatch
  | checksumError
  deriving DecidableEq, Repr

/-- The 3-bit `fail` register's values: every one is used (rule R170). -/
inductive FailReason where
  | none
  | handshakeTimeout
  | headerReadError
  | dataReadError
  | checksumReadError
  | nextBlockTimeout
  | sinkWriteError
  | txWriteError
  deriving DecidableEq, Repr

/-- The 2-bit `event` output's values (rule R43). `reserved1` is the value 1, never driven. -/
inductive Event where
  | none
  | reserved1
  | blockNumberMismatch
  | checksumError
  deriving DecidableEq, Repr

/-- An answer to `RxRead` (rule R12). `timeout` stands for both timeout and error. -/
inductive RxResponse where
  | byte (b : Byte)
  | timeout
  deriving DecidableEq, Repr

/-- An answer to `TxWrite` (rule R12). -/
inductive TxResponse where
  | ok
  | fail
  deriving DecidableEq, Repr

/-- An answer to `SinkWrite` (rule R12). -/
inductive SinkResponse where
  | ok
  | fail
  deriving DecidableEq, Repr

/-- What a history records of a transaction: its response, or that a reset dropped the response (rule R201). -/
inductive Recorded (α : Type) where
  | got (response : α)
  | dropped
  deriving DecidableEq, Repr

/-- A transaction of the block with a collaborator (rules R8, R12). -/
inductive Request where
  | rxRead
  | txWrite (b : Byte)
  | sinkWrite (p : Block)
  deriving DecidableEq, Repr

/-- One collaborator's answers, an unconstrained input of the model (rule R9): an entry for each step in which it is
asked, `none` where no answer arrives yet. After the queue the cycle comes, over and over: an endless run of frames or
of stray bytes (rule R214 items 1 to 3). An empty cycle is a collaborator that never answers again (item 4, R207). -/
structure Feed (α : Type) where
  queue : List (Option α)
  cycle : List (Option α)
  deriving DecidableEq, Repr

/-- The CTRL port during one step: the `reset` input and the `start` strobe (rule R53). -/
structure HostSample where
  reset : Bool
  start : Bool
  deriving DecidableEq, Repr

/-- Which of the registers that rule R45 leaves unspecified hold a value. A register holds none after reset, and does
from its first write on. -/
structure Held where
  ctrl : Bool
  hdrNum : Bool
  hdrCmp : Bool
  rxCk : Bool
  buf : Vector Bool blockSize
  deriving DecidableEq, Repr

/-- The whole machine. -/
structure State where
  /-- The parameters, fixed for a run (rules R7, R206). -/
  params : Params
  /-- `state`, 4 bits (rule R31). -/
  state : Ctl
  /-- `ctrl`, the last accepted control byte (rule R33). -/
  ctrl : Byte
  /-- `exp_blk`, the sequence counter (rule R34). -/
  expBlk : Byte
  /-- `retry`, the handshake timeouts of the session (rule R35). -/
  retry : Byte
  /-- `hdr_num`, frame byte 0 (rule R36). -/
  hdrNum : Byte
  /-- `hdr_cmp`, frame byte 1 (rule R37). -/
  hdrCmp : Byte
  /-- `buf[0..127]`, the payload buffer (rule R38). -/
  buf : Block
  /-- `rx_ck`, frame byte 130 (rule R39). -/
  rxCk : Byte
  /-- `idx`, the position within the field being received (rule R40). -/
  idx : Byte
  /-- `verdict`, the result of the last validation (rule R41). -/
  verdict : Verdict
  /-- `fail`, the failure reason (rule R42). -/
  fail : FailReason
  /-- `event`, the one-step output (rule R43). -/
  event : Event
  /-- Which unspecified registers hold a value (rule R45). -/
  held : Held
  /-- The transaction issued and not yet answered: at most one (rule R67). -/
  outstanding : Option Request
  /-- What the Byte Channel answers to reads (rule R50). -/
  rxIn : Feed RxResponse
  /-- What the Byte Channel answers to writes (rule R51). -/
  txIn : Feed TxResponse
  /-- What the Block Sink answers (rule R52). -/
  sinkIn : Feed SinkResponse
  /-- The CTRL port, one sample a step; after the list neither input is asserted (rule R53). -/
  hostIn : List HostSample
  /-- `RxLog` (rule R61), oldest first, over the whole run. -/
  rxLog : List (Recorded RxResponse)
  /-- `TxLog` (rule R61): the bytes passed to `TxWrite`, each with its response. -/
  txLog : List (Byte × Recorded TxResponse)
  /-- Every `SinkWrite` with its response; `SinkLog` (rule R61) is the part that answered `SinkOk`. -/
  sinkTrace : List (Block × Recorded SinkResponse)
  /-- How long `rxLog` was when the session began. -/
  rxMark : Nat
  /-- How long `txLog` was when the session began. -/
  txMark : Nat
  /-- How long `sinkTrace` was when the session began. -/
  sinkMark : Nat
  deriving DecidableEq, Repr

/-- Why the machine stops. Both are the model's own: neither is a value of the `fail` register. -/
inductive Fault where
  /-- `F_MODEL_UNREACHABLE` of rules R122 and R186: an `AWAIT_CTRL` whose `ctrl` is neither SOH nor EOT, a reserved
  `state` value, or (DEDUCED, log entry 5) an `idx` outside its field. Raised by `step` and by every meaning met in
  such a state. Safe: the hardware gives no step there and no run reaches it. -/
  | modelUnreachable
  /-- A read of a register that holds no value: "A read of it would fault" (rule R45; `92_eei_decisions.md` D19,
  `93_implementation_defined.md` I7). Raised by dispatch (`ctrl`), the validator and the sink write. Safe: no run
  reaches it. -/
  | unspecifiedRead
  deriving DecidableEq, Repr

/-- Why there is no step. All are safe: they stop where the block takes no step. -/
inductive Refusal where
  /-- The instruction has no meaning yet. Raised by `exec`'s rejected arms alone. -/
  | notModelled (mnemonic : String)
  /-- A response, dispatch or request that the current state does not ask for (rule R207: a response without a
  request gets no step). Raised by every meaning outside the states of its row; `step` never raises it. -/
  | noSuchTransaction
  /-- A catch-all control row with SOH or EOT as its byte, which rule R82 gives to another row. Raised by
  `HS.STRAY` and `NC.STRAY`; `step` never raises it. -/
  | illFormedSymbol
  /-- Bytes that are no symbol of their context. Raised by `step` alone, and never in fact, since the machine
  presents only symbols of its context. -/
  | undecodable
  deriving DecidableEq, Repr

/-- The outcome of a step of this machine. -/
abbrev Result := Host.Outcome State Fault Refusal

/-- What a step finds to do before it decodes anything. -/
inductive Fetched where
  /-- A step that runs no row of the table. -/
  | settled (r : Result)
  /-- A symbol to decode in a context, and the state it then runs in. -/
  | symbol (c : Context) (w : List Byte) (s : State)

/-- No register that rule R45 leaves unspecified holds a value. -/
def Held.nothing : Held :=
  { ctrl := false, hdrNum := false, hdrCmp := false, rxCk := false, buf := Vector.replicate blockSize false }

/-- A collaborator that gives no answer. -/
def Feed.silent {α : Type} : Feed α := { queue := [], cycle := [] }

/-- The machine right after reset (rules R45, R200): the values of R45's "after reset" column; the registers it
leaves unspecified are 0 and hold no value (DESIGN CHOICE, log entry 1); no input and no history (log entry 10). -/
def State.reset : State where
  params := Params.hardware
  state := .idle
  ctrl := 0
  expBlk := 1
  retry := 0
  hdrNum := 0
  hdrCmp := 0
  buf := Vector.replicate blockSize 0
  rxCk := 0
  idx := 0
  verdict := .none
  fail := .none
  event := .none
  held := Held.nothing
  outstanding := none
  rxIn := Feed.silent
  txIn := Feed.silent
  sinkIn := Feed.silent
  hostIn := []
  rxLog := []
  txLog := []
  sinkTrace := []
  rxMark := 0
  txMark := 0
  sinkMark := 0

end Sys2Proof.Machine
end

