-- ==== Sys2Proof/Machine/Flags.lean ====
section
/-!
DEFINITION. The codes of the coded registers (rules R31, R41, R42, R43), the two checks (R140, R141), and the STATUS
vector (R54).
-/
namespace Sys2Proof.Machine

/-- `state`'s 4-bit code (rule R31). -/
def Ctl.code : Ctl → BitVec 4
  | .idle => 0
  | .hsNak => 1
  | .hsRead => 2
  | .awaitCtrl => 3
  | .rxHeader => 4
  | .rxPayload => 5
  | .rxChecksum => 6
  | .validating => 7
  | .accWrite => 8
  | .accAck => 9
  | .rejNak => 10
  | .nextCtrl => 11
  | .complete => 12
  | .failed => 13
  | .reserved14 => 14
  | .reserved15 => 15

/-- `verdict`'s 2-bit code (rule R41). -/
def Verdict.code : Verdict → BitVec 2
  | .none => 0
  | .accept => 1
  | .blockNumberMismatch => 2
  | .checksumError => 3

/-- `fail`'s 3-bit code (rule R170). -/
def FailReason.code : FailReason → BitVec 3
  | .none => 0
  | .handshakeTimeout => 1
  | .headerReadError => 2
  | .dataReadError => 3
  | .checksumReadError => 4
  | .nextBlockTimeout => 5
  | .sinkWriteError => 6
  | .txWriteError => 7

/-- `event`'s 2-bit code (rule R43). -/
def Event.code : Event → BitVec 2
  | .none => 0
  | .reserved1 => 1
  | .blockNumberMismatch => 2
  | .checksumError => 3

/-- The values no rule writes (rule R186). -/
def Ctl.isReserved : Ctl → Bool
  | .reserved14 => true
  | .reserved15 => true
  | _ => false

/-- The states in which `start` is taken (rule R203). -/
def Ctl.takesStart : Ctl → Bool
  | .idle => true
  | .complete => true
  | .failed => true
  | _ => false

/-- The terminal states, in which `done` is 1 (rule R54). -/
def Ctl.isTerminal : Ctl → Bool
  | .complete => true
  | .failed => true
  | _ => false

/-- `hdr_ok`, the complement check (rule R140). -/
def hdrOk (num cmp : Byte) : Bool := (num.toNat + cmp.toNat) % 256 == 0xFF

/-- `calc_ck`: the natural-number sum of the payload, reduced modulo 256 at the end (rule R141). -/
def calcCk (p : Block) : Byte := BitVec.ofNat 8 ((p.toList.map BitVec.toNat).sum % 256)

/-- `ck_ok` (rule R141). -/
def ckOk (p : Block) (received : Byte) : Bool := calcCk p == received

/-- The `done` bit of STATUS (rule R54). -/
def State.done (s : State) : Bool := s.state.isTerminal

/-- The STATUS vector (rule R54): the read-only view the host has of the registers. -/
def State.status (s : State) : StatusWord :=
  BitVec.setWidth 32
    (0#6 ++ s.verdict.code ++ s.retry ++ s.expBlk ++ BitVec.ofBool s.done ++ s.fail.code ++ s.state.code)

end Sys2Proof.Machine
end

