-- ==== Sys2Proof/Machine/Operands.lean ====
section
/-!
DEFINITION. The operand forms: reading and writing the registers a frame is received into, each read minding whether
the register holds a value (rule R45), and taking an answer from a collaborator's feed.
-/
namespace Sys2Proof.Machine

/-- This step's answer of a collaborator, and the feed after it. -/
def Feed.pull {α : Type} (f : Feed α) : Option α × Feed α :=
  match f.queue with
  | x :: xs => (x, { f with queue := xs })
  | [] =>
    match f.cycle with
    | [] => (none, f)
    | x :: xs => (x, { f with queue := xs })

/-- Put an answer before everything else a collaborator answers. -/
def Feed.push {α : Type} (a : α) (f : Feed α) : Feed α := { f with queue := some a :: f.queue }

/-- What follows the first answer of a list, if it has one. -/
def afterAnswer {α : Type} : List (Option α) → Option (List (Option α))
  | [] => none
  | none :: xs => afterAnswer xs
  | some _ :: xs => some xs

/-- Drop the answer to a transaction that a reset aborts (rule R201; log entry 4): the queue's first, or else the
cycle's; without any, nothing is ever answered. -/
def Feed.dropAnswer {α : Type} (f : Feed α) : Feed α :=
  { f with queue := ((afterAnswer f.queue).or (afterAnswer f.cycle)).getD [] }

/-- The `ctrl` register, if it holds a value (rules R33, R45). -/
def State.readCtrl (s : State) : Option Byte := if s.held.ctrl then some s.ctrl else none

/-- The header registers, if both hold a value (rules R36, R37, R45). -/
def State.readHeader (s : State) : Option (Byte × Byte) :=
  if s.held.hdrNum && s.held.hdrCmp then some (s.hdrNum, s.hdrCmp) else none

/-- The payload buffer, if all 128 bytes hold a value (rules R38, R45). -/
def State.readBuf (s : State) : Option Block :=
  if s.held.buf.toList.all id then some s.buf else none

/-- The received checksum, if it holds a value (rules R39, R45). -/
def State.readRxCk (s : State) : Option Byte := if s.held.rxCk then some s.rxCk else none

/-- `R.ctrl <- b`. -/
def State.writeCtrl (b : Byte) (s : State) : State :=
  { s with ctrl := b, held := { s.held with ctrl := true } }

/-- `R.hdr_num <- b`. -/
def State.writeHdrNum (b : Byte) (s : State) : State :=
  { s with hdrNum := b, held := { s.held with hdrNum := true } }

/-- `R.hdr_cmp <- b`. -/
def State.writeHdrCmp (b : Byte) (s : State) : State :=
  { s with hdrCmp := b, held := { s.held with hdrCmp := true } }

/-- `R.buf[i] <- b`. -/
def State.writeBuf (i : Nat) (b : Byte) (s : State) : State :=
  { s with buf := s.buf.setIfInBounds i b, held := { s.held with buf := s.held.buf.setIfInBounds i true } }

/-- `R.rx_ck <- b`. -/
def State.writeRxCk (b : Byte) (s : State) : State :=
  { s with rxCk := b, held := { s.held with rxCk := true } }

end Sys2Proof.Machine
end

