-- ==== Sys2Proof/WellFormed.lean ====
section
/-!
DEFINITION. Which terms of `Instr` stand for a row of the table: a catch-all row of a control position applies only
to a byte that no exact row of its context takes (rules R82, R93).
-/
namespace Sys2Proof

/-- A byte that is SOH or EOT, and so never falls to a catch-all row of a control position (rule R82). -/
def isControlByte (b : Byte) : Bool := b == soh || b == eot

/-- The `applies` column of `opcode_table.json`: `b not in (0x01, 0x04)` on the three catch-all control rows. -/
def Instr.wf : Instr → Bool
  | .hsSoh => true
  | .hsEot => true
  | .hsStray b => !isControlByte b
  | .hsTimeout => true
  | .acEot => true
  | .acSoh => true
  | .acOther b => !isControlByte b
  | .frHdr _ => true
  | .frHdrTimeout => true
  | .frData _ => true
  | .frDataTimeout => true
  | .frCksum _ => true
  | .frCksumTimeout => true
  | .ncSoh => true
  | .ncEot => true
  | .ncStray b => !isControlByte b
  | .ncTimeout => true
  | .txAck => true
  | .txNak => true
  | .skWrite _ => true

end Sys2Proof
end

