-- ==== Sys2Proof/Machine/Ops.lean ====
section
/-!
DEFINITION. The operations the meanings share: the end of a step, `raise` (the block's only counterpart of taking an
exception, rule R13) with `start` beside it (the only way out of a failure, R182), the transactions, and `reset`.
-/
namespace Sys2Proof.Machine

/-- `R.state <- t` at the end of a step: no transaction is left outstanding, and the `event` output of the step before
reads `EV_NONE` again (rules R11, R43, R67). -/
def State.advance (t : Ctl) (s : State) : State :=
  { s with state := t, event := .none, outstanding := none }

/-- `raise Failed(reason)`: the four writes of rule R13; every other register keeps its value (R181). -/
def State.raise (r : FailReason) (s : State) : State :=
  { s with fail := r, state := .failed, idx := 0, event := .none, outstanding := none }

/-- Where the histories stand now is where a session's part of them begins (rule R61; log entry 8). -/
def State.markSession (s : State) : State :=
  { s with rxMark := s.rxLog.length, txMark := s.txLog.length, sinkMark := s.sinkTrace.length }

/-- `start` taken (rule R203): a new session. `ctrl`, `hdr_num`, `hdr_cmp`, `rx_ck` and `buf` are unchanged, and the
collaborators are not touched. -/
def State.startSession (s : State) : State :=
  { s with
    state := .hsNak, expBlk := 1, retry := 0, idx := 0, verdict := .none, fail := .none, event := .none
    outstanding := none }.markSession

/-- The transaction that a reset aborts is recorded as dropped, and its answer is dropped (rule R201). -/
def State.dropOutstanding (s : State) : State :=
  match s.outstanding with
  | none => s
  | some .rxRead => { s with rxLog := s.rxLog ++ [.dropped], rxIn := s.rxIn.dropAnswer, outstanding := none }
  | some (.txWrite b) => { s with txLog := s.txLog ++ [(b, .dropped)], txIn := s.txIn.dropAnswer, outstanding := none }
  | some (.sinkWrite p) =>
    { s with sinkTrace := s.sinkTrace ++ [(p, .dropped)], sinkIn := s.sinkIn.dropAnswer, outstanding := none }

/-- Every register at its value of R45's "after reset" column (rule R200). -/
def State.resetRegisters (s : State) : State :=
  { s with
    state := State.reset.state, ctrl := State.reset.ctrl, expBlk := State.reset.expBlk, retry := State.reset.retry
    hdrNum := State.reset.hdrNum, hdrCmp := State.reset.hdrCmp, buf := State.reset.buf, rxCk := State.reset.rxCk
    idx := State.reset.idx, verdict := State.reset.verdict, fail := State.reset.fail, event := State.reset.event
    held := State.reset.held }

/-- `reset` asserted (rules R200, R201): it wins over the step, whose writes do not happen (R178). -/
def State.hardReset (s : State) : State := s.dropOutstanding.resetRegisters.markSession

/-- No answer arrived in this step: the block holds in its state with the request outstanding and every register
unchanged (rules R188, R207; log entry 3 for `event`). -/
def State.waitFor (r : Request) (s : State) : State := { s with outstanding := some r }

/-- A read's response enters `RxLog` (rule R61). -/
def State.logRx (r : RxResponse) (s : State) : State := { s with rxLog := s.rxLog ++ [.got r] }

/-- A transmitted byte enters `TxLog` with its response (rule R61). -/
def State.logTx (b : Byte) (r : TxResponse) (s : State) : State := { s with txLog := s.txLog ++ [(b, .got r)] }

/-- A sink write is recorded with its response (rule R61). -/
def State.logSink (p : Block) (r : SinkResponse) (s : State) : State :=
  { s with sinkTrace := s.sinkTrace ++ [(p, .got r)] }

/-- `TxWrite(b)`, one byte (rules R12, R51): what follows the response, or a wait for it. -/
def txWrite (b : Byte) (after : TxResponse → State → State) (s : State) : Result :=
  match s.txIn.pull with
  | (none, f) => .next ({ s with txIn := f }.waitFor (.txWrite b))
  | (some r, f) => .next (after r ({ s with txIn := f }.logTx b r))

/-- `SinkWrite(p)`, 128 bytes (rules R12, R52): what follows the response, or a wait for it. -/
def sinkWrite (p : Block) (after : SinkResponse → State → State) (s : State) : Result :=
  match s.sinkIn.pull with
  | (none, f) => .next ({ s with sinkIn := f }.waitFor (.sinkWrite p))
  | (some r, f) => .next (after r ({ s with sinkIn := f }.logSink p r))

/-- The test of rules R145 and R177: a write that answered goes on unless it failed under `TX_FAIL_POLICY` = `Fatal`. -/
def State.txGoesOn (r : TxResponse) (s : State) : Bool :=
  r == .ok || s.params.txFailPolicy == .ignore

/-- `tx_done(resp, next)` (rule R177). -/
def State.txDone (r : TxResponse) (next : Ctl) (s : State) : State :=
  if s.txGoesOn r then s.advance next else s.raise .txWriteError

/-- A row met outside the states it runs in: a reserved state faults (rule R186), and any other gives no step
(rule R207). -/
def State.offRow (s : State) : Result :=
  if s.state.isReserved then .fault .modelUnreachable else .refused .noSuchTransaction

/-- A row that runs in one state. -/
def State.inState (c : Ctl) (s : State) (k : Result) : Result := if s.state = c then k else s.offRow

/-- A row of dispatch on `ctrl` (rules R120 to R122): it runs in `AWAIT_CTRL` when `ctrl` is its byte. A `ctrl` that is
neither SOH nor EOT faults and does not take a branch. -/
def State.dispatchOn (b : Byte) (s : State) (k : Result) : Result :=
  s.inState .awaitCtrl
    (match s.readCtrl with
    | none => .fault .unspecifiedRead
    | some c =>
      if c = b then k
      else if isControlByte c then .refused .noSuchTransaction
      else .fault .modelUnreachable)

/-- A row that reads a field of the frame: `idx` lies within the field (rules R123, R124), or no rule says what the
step does (log entry 5). -/
def State.inField (length : Nat) (s : State) (k : Result) : Result :=
  if s.idx.toNat < length then k else .fault .modelUnreachable

/-- A control byte read where one is expected is carried to `AWAIT_CTRL` (rules R103, R161). -/
def State.acceptCtrl (b : Byte) (s : State) : State := ((s.logRx (.byte b)).writeCtrl b).advance .awaitCtrl

/-- A read that timed out ends the session (rules R123 to R125, R160). -/
def State.failRead (r : FailReason) (s : State) : State := (s.logRx .timeout).raise r

end Sys2Proof.Machine
end

