-- ==== Sys2Proof/Machine/Handshake.lean ====
section
/-!
DEFINITION. The handshake read, `HS_READ` (`40_handshake.md` rules R102 to R104).
-/
namespace Sys2Proof.Machine

/-- `HS.SOH` (rule R103). -/
def execHsSoh (s : State) : Result := s.inState .hsRead (.next (s.acceptCtrl soh))

/-- `HS.EOT` (rule R103). -/
def execHsEot (s : State) : Result := s.inState .hsRead (.next (s.acceptCtrl eot))

/-- `HS.STRAY` (rule R104): the byte is discarded and `retry` does not change; another NAK follows. -/
def execHsStray (b : Byte) (s : State) : Result :=
  if isControlByte b then .refused .illFormedSymbol
  else s.inState .hsRead (.next ((s.logRx (.byte b)).advance .hsNak))

/-- `HS.TIMEOUT` (rule R102): the count after the increment is compared with `RETRY_CEILING`, strictly; the write of
`retry` takes effect also when it fails. -/
def execHsTimeout (s : State) : Result :=
  s.inState .hsRead
    (let n := s.retry.toNat + 1
    let t := { s.logRx .timeout with retry := BitVec.ofNat 8 n }
    .next (if s.params.retryCeiling.val < n then t.raise .handshakeTimeout else t.advance .hsNak))

end Sys2Proof.Machine
end

