-- ==== Sys2Proof/Machine/InterBlock.lean ====
section
/-!
DEFINITION. The inter-block wait, `NEXT_CTRL` (`43_interblock.md` rules R160 to R162).
-/
namespace Sys2Proof.Machine

/-- `NC.SOH` (rule R161). -/
def execNcSoh (s : State) : Result := s.inState .nextCtrl (.next (s.acceptCtrl soh))

/-- `NC.EOT` (rule R161). -/
def execNcEot (s : State) : Result := s.inState .nextCtrl (.next (s.acceptCtrl eot))

/-- `NC.STRAY` (rule R162): the byte is discarded and nothing is transmitted. -/
def execNcStray (b : Byte) (s : State) : Result :=
  if isControlByte b then .refused .illFormedSymbol
  else s.inState .nextCtrl (.next ((s.logRx (.byte b)).advance .nextCtrl))

/-- `NC.TIMEOUT` (rule R160): one timeout is fatal. -/
def execNcTimeout (s : State) : Result := s.inState .nextCtrl (.next (s.failRead .nextBlockTimeout))

end Sys2Proof.Machine
end

