-- ==== Sys2Proof/Machine/Frame.lean ====
section
/-!
DEFINITION. Dispatch on the control byte and the frame receiver (`41_control_and_frame.md` rules R120 to R125).
-/
namespace Sys2Proof.Machine

/-- The end of the transfer: ACK, then `COMPLETE` (rule R120). -/
def ackEot (s : State) : Result :=
  s.dispatchOn eot (txWrite ack (fun r t => t.txDone r .complete) s)

/-- `AC.EOT` (rule R120). -/
def execAcEot (s : State) : Result := ackEot s

/-- `AC.SOH` (rule R121): an internal step, with no transaction. -/
def execAcSoh (s : State) : Result :=
  s.dispatchOn soh (.next ({ s with idx := 0 }.advance .rxHeader))

/-- `AC.OTHER` (rule R122): unreachable, and a model that meets it must fault. -/
def execAcOther (_ : Byte) (_ : State) : Result := .fault .modelUnreachable

/-- `FR.HDR` (rule R123): the block number, then its complement. -/
def execFrHdr (b : Byte) (s : State) : Result :=
  s.inState .rxHeader (s.inField 2
    (let t := s.logRx (.byte b)
    .next (if s.idx = 0 then { t.writeHdrNum b with idx := 1 }.advance .rxHeader
      else { t.writeHdrCmp b with idx := 0 }.advance .rxPayload)))

/-- `FR.HDR_TIMEOUT` (rule R123). -/
def execFrHdrTimeout (s : State) : Result :=
  s.inState .rxHeader (s.inField 2 (.next (s.failRead .headerReadError)))

/-- `FR.DATA` (rule R124). -/
def execFrData (b : Byte) (s : State) : Result :=
  s.inState .rxPayload (s.inField blockSize
    (let t := (s.logRx (.byte b)).writeBuf s.idx.toNat b
    .next (if s.idx = 127 then { t with idx := 0 }.advance .rxChecksum
      else { t with idx := s.idx + 1 }.advance .rxPayload)))

/-- `FR.DATA_TIMEOUT` (rule R124). -/
def execFrDataTimeout (s : State) : Result :=
  s.inState .rxPayload (s.inField blockSize (.next (s.failRead .dataReadError)))

/-- `FR.CKSUM` (rule R125). -/
def execFrCksum (b : Byte) (s : State) : Result :=
  s.inState .rxChecksum (.next (((s.logRx (.byte b)).writeRxCk b).advance .validating))

/-- `FR.CKSUM_TIMEOUT` (rule R125). -/
def execFrCksumTimeout (s : State) : Result :=
  s.inState .rxChecksum (.next (s.failRead .checksumReadError))

end Sys2Proof.Machine
end

