-- ==== Sys2Proof/Machine/Validation.lean ====
section
/-!
DEFINITION. The validator's internal step, the sink write, and the transmitted bytes (`42_validation.md` rules R142 to
R146, `40_handshake.md` rule R101, `30_encoding.md` rule R90).
-/
namespace Sys2Proof.Machine

/-- A block is rejected: the verdict and the one-step event say why, and the NAK follows (rule R143). -/
def State.reject (v : Verdict) (e : Event) (s : State) : State :=
  { ({ s with verdict := v }.advance .rejNak) with event := e }

/-- The step of `VALIDATING` (rules R142, R143): the complement check first, the checksum only when it passes. It is no
row of the table, since nothing is read or written on a port. -/
def validate (s : State) : Result :=
  match s.readHeader with
  | none => .fault .unspecifiedRead
  | some (num, cmp) =>
    if !hdrOk num cmp then .next (s.reject .blockNumberMismatch .blockNumberMismatch)
    else
      match s.readBuf, s.readRxCk with
      | some p, some received =>
        if !ckOk p received then .next (s.reject .checksumError .checksumError)
        else .next ({ s with verdict := .accept }.advance .accWrite)
      | _, _ => .fault .unspecifiedRead

/-- `SK.WRITE` (rule R144): the payload on the port is the payload buffer's. -/
def execSkWrite (p : Block) (s : State) : Result :=
  s.inState .accWrite
    (match s.readBuf with
    | none => .fault .unspecifiedRead
    | some b =>
      if b = p then
        sinkWrite p (fun r t =>
          match r with
          | .ok => t.advance .accAck
          | .fail => t.raise .sinkWriteError) s
      else .refused .noSuchTransaction)

/-- The ACK of an accepted block, and the sequence counter's advance (rule R145). -/
def ackBlock (s : State) : Result :=
  txWrite ack (fun r t =>
    if t.txGoesOn r then { t with expBlk := t.expBlk + 1 }.advance .nextCtrl else t.raise .txWriteError) s

/-- `TX.ACK` (rule R90): issued in `ACC_ACK` (R145), and in `AWAIT_CTRL` on an EOT (R120). -/
def execTxAck (s : State) : Result :=
  match s.state with
  | .accAck => ackBlock s
  | .awaitCtrl => ackEot s
  | _ => s.offRow

/-- `TX.NAK` (rule R90): issued in `HS_NAK` (R101) and in `REJ_NAK` (R146). -/
def execTxNak (s : State) : Result :=
  match s.state with
  | .hsNak => txWrite nak (fun r t => t.txDone r .hsRead) s
  | .rejNak => txWrite nak (fun r t => t.txDone r .nextCtrl) s
  | _ => s.offRow

end Sys2Proof.Machine
end

