-- ==== Sys2Proof/Machine/Dispatch.lean ====
section
/-!
DEFINITION. One arm for each row of the opcode table.
-/
namespace Sys2Proof.Machine

def exec (i : Instr) (s : State) : Host.Outcome State Fault Refusal :=
  match i with
  | .hsSoh => Sys2Proof.Machine.execHsSoh s
  | .hsEot => Sys2Proof.Machine.execHsEot s
  | .hsStray b => Sys2Proof.Machine.execHsStray b s
  | .hsTimeout => Sys2Proof.Machine.execHsTimeout s
  | .acEot => Sys2Proof.Machine.execAcEot s
  | .acSoh => Sys2Proof.Machine.execAcSoh s
  | .acOther b => Sys2Proof.Machine.execAcOther b s
  | .frHdr b => Sys2Proof.Machine.execFrHdr b s
  | .frHdrTimeout => Sys2Proof.Machine.execFrHdrTimeout s
  | .frData b => Sys2Proof.Machine.execFrData b s
  | .frDataTimeout => Sys2Proof.Machine.execFrDataTimeout s
  | .frCksum b => Sys2Proof.Machine.execFrCksum b s
  | .frCksumTimeout => Sys2Proof.Machine.execFrCksumTimeout s
  | .ncSoh => Sys2Proof.Machine.execNcSoh s
  | .ncEot => Sys2Proof.Machine.execNcEot s
  | .ncStray b => Sys2Proof.Machine.execNcStray b s
  | .ncTimeout => Sys2Proof.Machine.execNcTimeout s
  | .txAck => Sys2Proof.Machine.execTxAck s
  | .txNak => Sys2Proof.Machine.execTxNak s
  | .skWrite p => Sys2Proof.Machine.execSkWrite p s

end Sys2Proof.Machine
end

