-- ==== Sys2Proof/Decode.lean ====
section
/-!
DEFINITION. Decoding by position (`30_encoding.md`): a symbol is a list of bytes (none for `RxTimeout`, one for a
byte, 128 for a sink write) and is decoded in the context that the machine's state selects. After it the encoder,
and the numbering of the opcode table's words.
-/
namespace Sys2Proof

/-- The classes of rule R82. -/
inductive CtrlClass where
  | soh
  | eot
  | stray
  deriving DecidableEq, Repr

/-- Why a list of bytes is no symbol of a context. Each is raised by `decode` alone, and each is safe: the machine
presents no such symbol. -/
inductive DecodeError where
  /-- No byte, in a context whose rows all have one (`AC`, `TX`). -/
  | noByte
  /-- More bytes than any row of the context has. -/
  | tooLong
  /-- A byte the block never transmits (rule R90). -/
  | neverTransmitted (b : Byte)
  /-- A sink symbol that is not 128 bytes long (rule R80). -/
  | notABlock
  deriving DecidableEq, Repr

/-- `decode_ctrl` of rule R82: all 8 bits are compared. -/
def decodeCtrl (b : Byte) : CtrlClass :=
  if b = soh then .soh else if b = eot then .eot else .stray

/-- The rows of the handshake read, `HS`. -/
def decodeHs : List Byte → Except DecodeError Instr
  | [] => .ok .hsTimeout
  | [b] =>
    match decodeCtrl b with
    | .soh => .ok .hsSoh
    | .eot => .ok .hsEot
    | .stray => .ok (.hsStray b)
  | _ :: _ :: _ => .error .tooLong

/-- The rows of dispatch on the `ctrl` register, `AC`. -/
def decodeAc : List Byte → Except DecodeError Instr
  | [] => .error .noByte
  | [b] =>
    match decodeCtrl b with
    | .soh => .ok .acSoh
    | .eot => .ok .acEot
    | .stray => .ok (.acOther b)
  | _ :: _ :: _ => .error .tooLong

/-- A frame position: every byte is data, whatever its value (rule R87), and `RxTimeout` has a row of its own. -/
def decodeFrame (onByte : Byte → Instr) (onTimeout : Instr) : List Byte → Except DecodeError Instr
  | [] => .ok onTimeout
  | [b] => .ok (onByte b)
  | _ :: _ :: _ => .error .tooLong

/-- The rows of the next-control read, `NC`. -/
def decodeNc : List Byte → Except DecodeError Instr
  | [] => .ok .ncTimeout
  | [b] =>
    match decodeCtrl b with
    | .soh => .ok .ncSoh
    | .eot => .ok .ncEot
    | .stray => .ok (.ncStray b)
  | _ :: _ :: _ => .error .tooLong

/-- The transmitted bytes, `TX`: exactly two values (rule R90). -/
def decodeTx : List Byte → Except DecodeError Instr
  | [] => .error .noByte
  | [b] => if b = ack then .ok .txAck else if b = nak then .ok .txNak else .error (.neverTransmitted b)
  | _ :: _ :: _ => .error .tooLong

/-- The sink write, `SK`: 128 bytes, the first is `buf[0]` (rules R62, R80). -/
def decodeSk (w : List Byte) : Except DecodeError Instr :=
  if h : w.length = blockSize then .ok (.skWrite ⟨⟨w⟩, h⟩) else .error .notABlock

/-- The decoder of rule R93: the context is picked first, then the row whose match and mask fit. -/
def decode : Context → List Byte → Except DecodeError Instr
  | .hs, w => decodeHs w
  | .ac, w => decodeAc w
  | .frHdr, w => decodeFrame .frHdr .frHdrTimeout w
  | .frData, w => decodeFrame .frData .frDataTimeout w
  | .frCksum, w => decodeFrame .frCksum .frCksumTimeout w
  | .nc, w => decodeNc w
  | .tx, w => decodeTx w
  | .sk, w => decodeSk w

/-- The symbol of an instruction, from the same maps (rules R80, R81, R93). -/
def encode : Instr → List Byte
  | .hsSoh => [soh]
  | .hsEot => [eot]
  | .hsStray b => [b]
  | .hsTimeout => []
  | .acEot => [eot]
  | .acSoh => [soh]
  | .acOther b => [b]
  | .frHdr b => [b]
  | .frHdrTimeout => []
  | .frData b => [b]
  | .frDataTimeout => []
  | .frCksum b => [b]
  | .frCksumTimeout => []
  | .ncSoh => [soh]
  | .ncEot => [eot]
  | .ncStray b => [b]
  | .ncTimeout => []
  | .txAck => [ack]
  | .txNak => [nak]
  | .skWrite p => p.toList

/-! ## The opcode table's words

The table numbers one byte per row and has no bits for the context, so its words do not tell `HS.SOH`, `AC.SOH` and
`NC.SOH` apart. DESIGN CHOICE (log entry 9): a word of 8 bits is read without a context, by the table itself (exact
rows before catch-all rows, earlier rows first); a word of 16 bits names its context in bits 15..8. -/

/-- `n` bytes of `w`, the first from bits 7..0. -/
def wordBytes : Nat → Nat → List Byte
  | 0, _ => []
  | n + 1, w => BitVec.ofNat 8 w :: wordBytes n (w / 256)

/-- The table read without a context: the exact rows in the table's order, then its first catch-all row. -/
def decodeByTable (b : Byte) : Instr :=
  if b = soh then .hsSoh
  else if b = eot then .hsEot
  else if b = ack then .txAck
  else if b = nak then .txNak
  else .hsStray b

/-- The instruction a 16-bit word names: bits 15..8 are 0 for no context, else the context's number, with 0x80 added
for the context's `RxTimeout`. -/
def decodeTagged (b tag : Byte) : Option Instr :=
  match tag.toNat with
  | 0x00 => some (decodeByTable b)
  | 0x01 => (decode .hs [b]).toOption
  | 0x02 => (decode .ac [b]).toOption
  | 0x03 => (decode .frHdr [b]).toOption
  | 0x04 => (decode .frData [b]).toOption
  | 0x05 => (decode .frCksum [b]).toOption
  | 0x06 => (decode .nc [b]).toOption
  | 0x07 => (decode .tx [b]).toOption
  | 0x81 => (decode .hs []).toOption
  | 0x83 => (decode .frHdr []).toOption
  | 0x84 => (decode .frData []).toOption
  | 0x85 => (decode .frCksum []).toOption
  | 0x86 => (decode .nc []).toOption
  | _ => none

/-- The instruction of a word numbered as `opcode_table.json` numbers it. No bits at all is the symbol without a
byte, `RxTimeout`, read by the table's first `rxto` row; 1024 bits are a sink write. -/
def decodeTableWord (nbits w : Nat) : Option Instr :=
  match wordBytes (nbits / 8) w with
  | [] => some .hsTimeout
  | [b] => some (decodeByTable b)
  | [b, tag] => decodeTagged b tag
  | bytes => (decode .sk bytes).toOption

end Sys2Proof
end

