-- ==== Sys2Proof/Machine/Fetch.lean ====
section
/-!
DEFINITION. What a step finds to do: the host's inputs first, then what the controller state says (rule R31). The
block has no stored program and fetches nothing (R71); the symbol it decodes is a response, the `ctrl` register, or
what it is about to put on a port.
-/
namespace Sys2Proof.Machine

/-- Neither input of the CTRL port is asserted. -/
def HostSample.quiet : HostSample := { reset := false, start := false }

/-- This step's sample of the CTRL port (rule R53). -/
def State.hostSample (s : State) : HostSample := s.hostIn.headD HostSample.quiet

/-- The CTRL port after this step's sample. -/
def State.hostTaken (s : State) : State := { s with hostIn := s.hostIn.tail }

/-- The bytes of a read's response: one, or none for `RxTimeout` (rule R80). -/
def RxResponse.word : RxResponse → List Byte
  | .byte b => [b]
  | .timeout => []

/-- A reading state: the response, when there is one, is decoded in the state's context (rules R50, R93). -/
def fetchRx (c : Context) (s : State) : Fetched :=
  match s.rxIn.pull with
  | (none, f) => .settled (.next ({ s with rxIn := f }.waitFor .rxRead))
  | (some r, f) => .symbol c r.word { s with rxIn := f }

/-- What the controller state does in this step (rule R31). In `IDLE`, `COMPLETE` and `FAILED` no register is written
(R180, R181, R202). A reserved state faults (R186). -/
def State.fetchByState (s : State) : Fetched :=
  match s.state with
  | .idle => .settled (.next (s.advance .idle))
  | .hsNak => .symbol .tx [nak] s
  | .hsRead => fetchRx .hs s
  | .awaitCtrl =>
    match s.readCtrl with
    | none => .settled (.fault .unspecifiedRead)
    | some b => .symbol .ac [b] s
  | .rxHeader => fetchRx .frHdr s
  | .rxPayload => fetchRx .frData s
  | .rxChecksum => fetchRx .frCksum s
  | .validating => .settled (validate s)
  | .accWrite =>
    match s.readBuf with
    | none => .settled (.fault .unspecifiedRead)
    | some p => .symbol .sk p.toList s
  | .accAck => .symbol .tx [ack] s
  | .rejNak => .symbol .tx [nak] s
  | .nextCtrl => fetchRx .nc s
  | .complete => .settled (.next (s.advance .complete))
  | .failed => .settled (.next (s.advance .failed))
  | .reserved14 => .settled (.fault .modelUnreachable)
  | .reserved15 => .settled (.fault .modelUnreachable)

/-- One step's work: `reset` wins over everything (rules R178, R201), `start` is taken in `IDLE`, `COMPLETE` and
`FAILED` and ignored elsewhere (R203, R204), and otherwise the controller state says. -/
def fetch (s : State) : Fetched :=
  if s.hostSample.reset then .settled (.next s.hostTaken.hardReset)
  else if s.hostSample.start && s.state.takesStart then .settled (.next s.hostTaken.startSession)
  else s.hostTaken.fetchByState

/-- The state in which a row is fetched; `TX.ACK` in `ACC_ACK` and `TX.NAK` in `HS_NAK`. -/
def fetchState : Instr → Ctl
  | .hsSoh => .hsRead
  | .hsEot => .hsRead
  | .hsStray _ => .hsRead
  | .hsTimeout => .hsRead
  | .acEot => .awaitCtrl
  | .acSoh => .awaitCtrl
  | .acOther _ => .awaitCtrl
  | .frHdr _ => .rxHeader
  | .frHdrTimeout => .rxHeader
  | .frData _ => .rxPayload
  | .frDataTimeout => .rxPayload
  | .frCksum _ => .rxChecksum
  | .frCksumTimeout => .rxChecksum
  | .ncSoh => .nextCtrl
  | .ncEot => .nextCtrl
  | .ncStray _ => .nextCtrl
  | .ncTimeout => .nextCtrl
  | .txAck => .accAck
  | .txNak => .hsNak
  | .skWrite _ => .accWrite

/-- A quiet CTRL port in the next step, the state the row is fetched in, and no transaction outstanding. -/
def State.poised (c : Ctl) (s : State) : State :=
  { s with
    state := c, outstanding := none
    hostIn := match s.hostIn with
      | [] => []
      | _ :: rest => HostSample.quiet :: rest }

/-- The channel's next response. -/
def State.withResponse (r : RxResponse) (s : State) : State := { s with rxIn := s.rxIn.push r }

/-- `s` made ready to fetch `i` in its next step: the controller state, and what that state decodes (the channel's
response, the `ctrl` register or the payload buffer), with an `ok` answer for a row that makes a write. -/
def State.withFetch (i : Instr) (s : State) : State :=
  let t := s.poised (fetchState i)
  match i with
  | .hsSoh => t.withResponse (.byte soh)
  | .hsEot => t.withResponse (.byte eot)
  | .hsStray b => t.withResponse (.byte b)
  | .hsTimeout => t.withResponse .timeout
  | .acEot => { t.writeCtrl eot with txIn := t.txIn.push .ok }
  | .acSoh => t.writeCtrl soh
  | .acOther b => t.writeCtrl b
  | .frHdr b => { t with idx := 0 }.withResponse (.byte b)
  | .frHdrTimeout => { t with idx := 0 }.withResponse .timeout
  | .frData b => { t with idx := 0 }.withResponse (.byte b)
  | .frDataTimeout => { t with idx := 0 }.withResponse .timeout
  | .frCksum b => t.withResponse (.byte b)
  | .frCksumTimeout => t.withResponse .timeout
  | .ncSoh => t.withResponse (.byte soh)
  | .ncEot => t.withResponse (.byte eot)
  | .ncStray b => t.withResponse (.byte b)
  | .ncTimeout => t.withResponse .timeout
  | .txAck => { t with txIn := t.txIn.push .ok }
  | .txNak => { t with txIn := t.txIn.push .ok }
  | .skWrite p =>
    { t with
      buf := p, held := { t.held with buf := Vector.replicate blockSize true }
      sinkIn := t.sinkIn.push .ok }

end Sys2Proof.Machine
end

