-- ==== Sys2Proof/Machine/Step.lean ====
section
/-!
DEFINITION. One step of the machine (rule R8), and the placing of a word where the next step fetches it.
-/
namespace Sys2Proof.Machine

/-- Decode the symbol and run its row. -/
def runSymbol (c : Context) (w : List Byte) (s : State) : Result :=
  match decode c w with
  | .ok i => exec i s
  | .error _ => .refused .undecodable

/-- One step: at most one transaction with one collaborator (rule R8). -/
def step (s : State) : Host.Outcome State Fault Refusal :=
  match fetch s with
  | .settled r => r
  | .symbol c w t => runSymbol c w t

/-- The word's instruction made ready for the next step (log entry 9). -/
def State.withFetchWord (s : State) (nbits w : Nat) : State :=
  match decodeTableWord nbits w with
  | some i => s.withFetch i
  | none => s

end Sys2Proof.Machine
end

