-- ==== Sys2Proof/Machine/Histories.lean ====
section
/-!
DEFINITION. The views of the histories that claims are stated over (`20_memory.md` rule R61): `SinkLog`, and the parts
of one session (rule R213).
-/
namespace Sys2Proof.Machine

/-- The block of a sink write that answered `SinkOk`. -/
def storedBlock : Block × Recorded SinkResponse → Option Block
  | (p, .got .ok) => some p
  | (_, .got .fail) => none
  | (_, .dropped) => none

/-- `SinkLog`: the blocks for which `SinkWrite` answered `SinkOk`, in order (rule R61). -/
def State.sinkLog (s : State) : List Block := s.sinkTrace.filterMap storedBlock

/-- `SinkLog` of the current session. -/
def State.sessionSinkLog (s : State) : List Block := (s.sinkTrace.drop s.sinkMark).filterMap storedBlock

/-- `TxLog` of the current session. -/
def State.sessionTxLog (s : State) : List (Byte × Recorded TxResponse) := s.txLog.drop s.txMark

/-- `RxLog` of the current session. -/
def State.sessionRxLog (s : State) : List (Recorded RxResponse) := s.rxLog.drop s.rxMark

/-- What is observed of a session (rule R213). -/
structure Observation where
  state : Ctl
  fail : FailReason
  expBlk : Byte
  retry : Byte
  verdict : Verdict
  txLog : List (Byte × Recorded TxResponse)
  sinkLog : List Block
  deriving DecidableEq, Repr

/-- The observation of the current session (rule R213). -/
def State.observe (s : State) : Observation :=
  { state := s.state, fail := s.fail, expBlk := s.expBlk, retry := s.retry, verdict := s.verdict
    txLog := s.sessionTxLog, sinkLog := s.sessionSinkLog }

end Sys2Proof.Machine
end

