-- ==== Sys2Proof/Machine/Script.lean ====
section
/-!
DEFINITION. Wire scripts, the block's "programs" (`30_encoding.md` rule R92): the answers of the collaborators in
order, and how a script comes to run.
-/
namespace Sys2Proof.Machine

/-- A wire script's three queues. An omitted `TX:` or `SINK:` is `none`: every answer is then a success (rule R92). -/
structure WireScript where
  rx : List RxResponse
  tx : Option (List TxResponse)
  sink : Option (List SinkResponse)
  deriving DecidableEq, Repr

/-- A queue whose answers come at once, and nothing after them. -/
def Feed.ofList {α : Type} (l : List α) : Feed α := { queue := l.map some, cycle := [] }

/-- The listed answers at once, over and over (rule R214). -/
def Feed.endless {α : Type} (l : List α) : Feed α := { queue := [], cycle := l.map some }

/-- A collaborator that gives one answer to every request. -/
def Feed.always {α : Type} (a : α) : Feed α := Feed.endless [a]

/-- A `TX:` or `SINK:` queue: the written answers, if any, and after them the success answer to every request. DEDUCED
(log entry 15): rule R92 says so of an omitted queue only. -/
def Feed.thenAlways {α : Type} (success : α) (written : Option (List α)) : Feed α :=
  { Feed.always success with queue := (written.getD []).map some }

/-- `FRAME(n, c, P, k)`: 131 responses (rule R92). -/
def frame (n c : Byte) (p : Block) (k : Byte) : List RxResponse :=
  (n :: c :: (p.toList ++ [k])).map .byte

/-- `GOOD(n, P)` (rule R92). -/
def goodFrame (n : Byte) (p : Block) : List RxResponse := frame n (0xFF#8 - n) p (calcCk p)

/-- The script's answers as the collaborators' feeds. After the `RX:` queue no response arrives (log entry 15). -/
def State.withScript (w : WireScript) (s : State) : State :=
  { s with
    rxIn := Feed.ofList w.rx, txIn := Feed.thenAlways .ok w.tx, sinkIn := Feed.thenAlways .ok w.sink }

/-- A script under given parameters from reset: the host strobes `start` in the first step (rule R203). -/
def State.withProgram (p : Params) (w : WireScript) : State :=
  { State.reset.withScript w with params := p, hostIn := [{ reset := false, start := true }] }

end Sys2Proof.Machine
end

