-- ==== Sys2Proof/Safety.lean ====
section
/-!
DEFINITION. What claims about runs are stated in: the invariants of `10_state.md` rule R44 and of the histories, runs
that do not stop, and what the collaborators may hold after a transaction that failed or was dropped (rules R64, R201).
-/
namespace Sys2Proof.Machine

/-- The CTRL port leaves the step to the controller state: no reset, and no `start` that is taken. -/
def State.proceeds (s : State) : Prop :=
  s.hostSample.reset = false ∧ (s.hostSample.start && s.state.takesStart) = false

/-- The request a state issues; none in a state without a transaction (rules R50 to R52). -/
def State.request (s : State) : Option Request :=
  match s.state with
  | .hsNak => some (.txWrite nak)
  | .hsRead => some .rxRead
  | .awaitCtrl => if s.ctrl = eot then some (.txWrite ack) else none
  | .rxHeader => some .rxRead
  | .rxPayload => some .rxRead
  | .rxChecksum => some .rxRead
  | .accWrite => some (.sinkWrite s.buf)
  | .accAck => some (.txWrite ack)
  | .rejNak => some (.txWrite nak)
  | .nextCtrl => some .rxRead
  | .idle => none
  | .validating => none
  | .complete => none
  | .failed => none
  | .reserved14 => none
  | .reserved15 => none

/-- The states from the first header byte's arrival on in which the block number has been received. -/
def State.hasHdrNum (s : State) : Prop :=
  (s.state = .rxHeader ∧ s.idx ≠ 0) ∨ s.state = .rxPayload ∨ s.state = .rxChecksum ∨ s.state = .validating ∨
    s.state = .accWrite ∨ s.state = .accAck ∨ s.state = .rejNak

/-- The states in which the whole frame has been received and not yet answered. -/
def State.hasFrame (s : State) : Prop :=
  s.state = .validating ∨ s.state = .accWrite ∨ s.state = .accAck ∨ s.state = .rejNak

/-- The invariants of rule R44 (item 4 by the registers that hold a value; `FrameOnWire` says the rest of it), made
inductive by following the frame registers while they are received. -/
structure Inv (s : State) : Prop where
  ctrlLegal : s.state = .awaitCtrl → s.held.ctrl = true ∧ (s.ctrl = soh ∨ s.ctrl = eot)
  idxHeader : s.state = .rxHeader → s.idx = 0 ∨ s.idx = 1
  idxPayload : s.state = .rxPayload → s.idx.toNat ≤ 127
  idxElsewhere : s.state ≠ .rxHeader → s.state ≠ .rxPayload → s.idx = 0
  failIff : s.state = .failed ↔ s.fail ≠ .none
  numHeld : s.hasHdrNum → s.held.hdrNum = true
  cmpHeld : s.state = .rxPayload ∨ s.state = .rxChecksum ∨ s.hasFrame → s.held.hdrCmp = true
  payloadHeld : s.state = .rxPayload → ∀ i : Fin blockSize, i.val < s.idx.toNat → s.held.buf[i] = true
  bufHeld : s.state = .rxChecksum ∨ s.hasFrame → ∀ i : Fin blockSize, s.held.buf[i] = true
  rxCkHeld : s.hasFrame → s.held.rxCk = true
  accepted : s.state = .accWrite ∨ s.state = .accAck → s.verdict = .accept
  rejected : s.state = .rejNak → s.verdict = .blockNumberMismatch ∨ s.verdict = .checksumError
  notReserved : s.state.isReserved = false

/-- The bytes of the current block that have been received, its control byte first (rule R83). -/
def State.wireSoFar (s : State) : List Byte :=
  match s.state with
  | .awaitCtrl => [s.ctrl]
  | .rxHeader => if s.idx = 0 then [soh] else [soh, s.hdrNum]
  | .rxPayload => [soh, s.hdrNum, s.hdrCmp] ++ s.buf.toList.take s.idx.toNat
  | .rxChecksum => [soh, s.hdrNum, s.hdrCmp] ++ s.buf.toList
  | .validating => [soh, s.hdrNum, s.hdrCmp] ++ s.buf.toList ++ [s.rxCk]
  | .accWrite => [soh, s.hdrNum, s.hdrCmp] ++ s.buf.toList ++ [s.rxCk]
  | .accAck => [soh, s.hdrNum, s.hdrCmp] ++ s.buf.toList ++ [s.rxCk]
  | .rejNak => [soh, s.hdrNum, s.hdrCmp] ++ s.buf.toList ++ [s.rxCk]
  | _ => []

/-- The last reads of the run are, in order, the block received so far: the frame registers hold what the wire brought
since the SOH (rules R44 item 4, R62, R83). -/
def FrameOnWire (s : State) : Prop :=
  s.wireSoFar.map (fun b => Recorded.got (RxResponse.byte b)) <:+ s.rxLog

/-- A transaction is outstanding only where the state issues it, and it is that one (rules R50 to R52, R67). -/
def PortsLegal (s : State) : Prop := s.outstanding = none ∨ s.outstanding = s.request

/-- Every byte ever offered to the channel is ACK or NAK (rules R51, R90). -/
def OnlyAckNak (s : State) : Prop := ∀ e ∈ s.txLog, e.1 = ack ∨ e.1 = nak

/-- The session's part of each history lies within it. -/
def MarksWithin (s : State) : Prop :=
  s.rxMark ≤ s.rxLog.length ∧ s.txMark ≤ s.txLog.length ∧ s.sinkMark ≤ s.sinkTrace.length

/-- The counter law of rule R147: one more than the blocks the session stored, modulo 256, but for the ACK of the
latest one in `ACC_ACK`, and for a failed ACK under `Fatal`. -/
structure CounterLaw (s : State) : Prop where
  inAck : s.state = .accAck → s.expBlk = BitVec.ofNat 8 s.sessionSinkLog.length
  elsewhere : s.state ≠ .accAck → s.fail ≠ .txWriteError →
    s.expBlk = BitVec.ofNat 8 (1 + s.sessionSinkLog.length)
  afterTxFailure : s.fail = .txWriteError →
    s.expBlk = BitVec.ofNat 8 s.sessionSinkLog.length ∨ s.expBlk = BitVec.ofNat 8 (1 + s.sessionSinkLog.length)
  underIgnore : s.params.txFailPolicy = .ignore → s.fail ≠ .txWriteError

/-- A response that the handshake loop goes on after: a timeout or a stray byte (rules R102, R104). -/
def isProbeAnswer : Recorded RxResponse → Bool
  | .got .timeout => true
  | .got (.byte b) => !isControlByte b
  | .dropped => false

/-- The handshake loop. -/
def State.inHandshake (s : State) : Prop := s.state = .hsNak ∨ s.state = .hsRead

/-- The handshake of rules R100 to R106: only timeouts and stray bytes have been read, `retry` counts the timeouts, one
NAK goes before each read, nothing was stored; and so it still stands when the ceiling ends it. -/
structure HandshakeLaw (s : State) : Prop where
  reads : s.inHandshake ∨ s.fail = .handshakeTimeout → s.sessionRxLog.all isProbeAnswer = true
  counts : s.inHandshake ∨ s.fail = .handshakeTimeout →
    s.retry.toNat = s.sessionRxLog.count (.got .timeout)
  onlyNak : s.inHandshake ∨ s.fail = .handshakeTimeout → ∀ e ∈ s.sessionTxLog, e.1 = nak
  beforeNak : s.state = .hsNak → s.sessionTxLog.length = s.sessionRxLog.length
  beforeRead : s.state = .hsRead → s.sessionTxLog.length = s.sessionRxLog.length + 1
  atCeiling : s.fail = .handshakeTimeout →
    s.sessionTxLog.length = s.sessionRxLog.length ∧ s.retry.toNat = s.params.retryCeiling.val + 1
  belowCeiling : s.inHandshake → s.retry.toNat ≤ s.params.retryCeiling.val
  untouched : s.inHandshake ∨ s.fail = .handshakeTimeout →
    s.sessionSinkLog = [] ∧ s.expBlk = 1 ∧ s.verdict = .none

/-- `retry` stays within rule R35's bound: at most the ceiling, and one more only where the ceiling ended the
handshake. -/
def RetryBounded (s : State) : Prop :=
  s.retry.toNat ≤ s.params.retryCeiling.val ∨
    (s.fail = .handshakeTimeout ∧ s.retry.toNat = s.params.retryCeiling.val + 1)

/-- In `ACC_ACK` the latest sink write is the buffer's, and it answered `SinkOk` (rule R68). -/
def SinkBeforeAck (s : State) : Prop :=
  s.state = .accAck → s.sinkTrace.getLast? = some (s.buf, .got .ok)

/-- A run that never stops, whatever number of steps is taken. -/
def NeverStops (s : State) : Prop := ∀ n : Nat, ∃ t : State, core.run n s = .next t

/-- The host asserts neither input, in this step and every later one. -/
def State.quietHost (s : State) : Prop := s.hostIn = []

/-- Every register that rule R45 leaves unspecified holds a value where the validator reads it. -/
def State.bufHolds (s : State) : Prop := ∀ i : Fin blockSize, s.held.buf[i] = true

/-- The responses of a whole block on the wire: SOH and a good frame (rules R83, R92). -/
def wireBlock (b : Byte × Block) : List RxResponse := .byte soh :: goodFrame b.1 b.2

/-- A frame as a sender puts it on the wire after its SOH (rule R83). -/
structure WireFrame where
  num : Byte
  cmp : Byte
  payload : Block
  ck : Byte
  deriving DecidableEq, Repr

/-- The responses of the frame, its SOH first (rules R83, R92). -/
def WireFrame.wire (f : WireFrame) : List RxResponse := .byte soh :: frame f.num f.cmp f.payload f.ck

/-- Both checks pass (rules R140, R141). -/
def WireFrame.valid (f : WireFrame) : Bool := hdrOk f.num f.cmp && ckOk f.payload f.ck

/-- The steps from one `NEXT_CTRL` to the next (rule R212): the SOH's read, 132 for the frame, and the reply's. -/
def WireFrame.steps (f : WireFrame) : Nat := if f.valid then 136 else 135

/-- The byte that answers the frame (rules R145, R146). -/
def WireFrame.reply (f : WireFrame) : Byte := if f.valid then ack else nak

/-! What a collaborator's side of a stream may be, by the effect of each recorded transaction on it. DESIGN CHOICE (log
entry 16): a transaction counts once it is recorded, answered or dropped, and not while it is outstanding, though its
byte may be on the wire by then (rule R210). -/

/-- The bytes after a history's transactions, oldest first, from the bytes before them. -/
def MayBecome {α : Type} (effect : α → List Byte → List Byte → Prop) : List α → List Byte → List Byte → Prop
  | [], before, after => after = before
  | e :: rest, before, after => ∃ mid : List Byte, effect e before mid ∧ MayBecome effect rest mid after

/-- A sink write's effect on what the sink holds: all of a block that answered `SinkOk`; any prefix of one that answered
`SinkFail`, or none (rule R64, I5); and after an aborted one anything (rule R201, I6). -/
def SinkEffect : Block × Recorded SinkResponse → List Byte → List Byte → Prop
  | (p, .got .ok), before, after => after = before ++ p.toList
  | (p, .got .fail), before, after => ∃ n : Nat, after = before ++ p.toList.take n
  | (_, .dropped), _, _ => True

/-- A write's effect on what the sender has received: a byte that answered `TxOk` is received, and of any other it is
not known whether it was (rules R64, R201, I4). -/
def SenderEffect : Byte × Recorded TxResponse → List Byte → List Byte → Prop
  | (b, .got .ok), before, after => after = before ++ [b]
  | (b, .got .fail), before, after => after = before ∨ after = before ++ [b]
  | (b, .dropped), before, after => after = before ∨ after = before ++ [b]

/-- A read's effect on the bytes consumed of the channel: an aborted read consumed a byte or none (rules R65, R201). -/
def ChannelEffect : Recorded RxResponse → List Byte → List Byte → Prop
  | .got (.byte b), before, after => after = before ++ [b]
  | .got .timeout, before, after => after = before
  | .dropped, before, after => after = before ∨ ∃ b : Byte, after = before ++ [b]

/-- What the sink may hold by the recorded writes, from what it held before the run's first; an outstanding write is not
counted yet (DESIGN CHOICE, log entry 16). One sink serves the whole run, and `start` and reset by themselves leave its
bytes (DESIGN CHOICE, log entry 17). -/
def SinkMayHold (s : State) (before after : List Byte) : Prop := MayBecome SinkEffect s.sinkTrace before after

/-- What the sender may have received of the recorded writes, from what it had before the run's first; an outstanding
write is not counted yet (DESIGN CHOICE, log entry 16), and one sender's record goes on across `start` and reset (log
entry 17). -/
def SenderMayHave (s : State) (before after : List Byte) : Prop := MayBecome SenderEffect s.txLog before after

/-- What may have been consumed of the channel by the recorded reads, from what had been before the run's first; an
outstanding read is not counted yet (DESIGN CHOICE, log entry 16), and one channel's record goes on across `start` and
reset (log entry 17). -/
def ChannelMayHaveGiven (s : State) (before after : List Byte) : Prop := MayBecome ChannelEffect s.rxLog before after

/-- A reset aborts this transaction in this step (rule R201). -/
def State.aborts (s : State) (r : Request) : Prop := s.hostSample.reset = true ∧ s.outstanding = some r

end Sys2Proof.Machine
end

