-- ==== Sys2Proof/Certificates/Slice0/Obligations.lean ====
section
/-!
DEFINITION. The statements for the provers. Each docstring names the rules of `spec/` it formalises.
-/
section
open Sys2Proof Sys2Proof.Machine

/-! ## Reset, start, rest -/

/-- R45, R7: the registers of the reset state, and the parameters this hardware has. No register that R45 leaves
unspecified holds a value. -/
def Obligations.ResetStateHoldsTheResetColumn : Prop :=
  State.reset.state = .idle ∧ State.reset.expBlk = 1 ∧ State.reset.retry = 0 ∧ State.reset.idx = 0 ∧
    State.reset.verdict = .none ∧ State.reset.fail = .none ∧ State.reset.event = .none ∧
    State.reset.held.ctrl = false ∧ State.reset.held.hdrNum = false ∧ State.reset.held.hdrCmp = false ∧
    State.reset.held.rxCk = false ∧ (∀ i : Fin blockSize, State.reset.held.buf[i] = false) ∧
    State.reset.outstanding = none ∧ State.reset.params = { retryCeiling := 20, txFailPolicy := .ignore } ∧
    State.reset.status = 0x00000100#32

/-- R200: whatever the state, a step with `reset` asserted writes every register to its "after reset" value and leaves
the block in `IDLE` with no transaction. The parameters stay (R206). -/
def Obligations.HostResetWritesTheResetColumn : Prop :=
  ∀ s : State, s.hostSample.reset = true →
    ∃ t : State, step s = .next t ∧
      t.state = .idle ∧ t.expBlk = 1 ∧ t.retry = 0 ∧ t.idx = 0 ∧ t.verdict = .none ∧ t.fail = .none ∧
      t.event = .none ∧ t.held.ctrl = false ∧ t.held.hdrNum = false ∧ t.held.hdrCmp = false ∧
      t.held.rxCk = false ∧ (∀ i : Fin blockSize, t.held.buf[i] = false) ∧
      t.outstanding = none ∧ t.params = s.params ∧ t.hostIn = s.hostIn.tail

/-- R201, R61, R178: the transaction a reset aborts is recorded with the response dropped, and nothing else is
recorded; without one outstanding, the histories stay. That a reset in the very step in which a state would issue its
request finds none outstanding is the model's choice (log entry 11). -/
def Obligations.ResetDropsTheOutstandingTransaction : Prop :=
  ∀ s : State, s.hostSample.reset = true →
    ∃ t : State, step s = .next t ∧
      t.rxLog = s.rxLog ++ (if s.outstanding = some .rxRead then [.dropped] else []) ∧
      (∀ b : Byte, s.outstanding = some (.txWrite b) → t.txLog = s.txLog ++ [(b, .dropped)]) ∧
      ((∀ b : Byte, s.outstanding ≠ some (.txWrite b)) → t.txLog = s.txLog) ∧
      (∀ p : Block, s.outstanding = some (.sinkWrite p) → t.sinkTrace = s.sinkTrace ++ [(p, .dropped)]) ∧
      ((∀ p : Block, s.outstanding ≠ some (.sinkWrite p)) → t.sinkTrace = s.sinkTrace)

/-- R203: a `start` taken in `IDLE`, `COMPLETE` or `FAILED` makes exactly the writes of the rule (beside them, the
model's marks of where the session's part of each history begins), and the first transaction of the session is the
NAK. -/
def Obligations.StartBeginsASession : Prop :=
  ∀ s : State, s.hostSample.reset = false → s.hostSample.start = true →
    (s.state = .idle ∨ s.state = .complete ∨ s.state = .failed) →
    ∃ t : State,
      t = { s with
        state := .hsNak, expBlk := 1, retry := 0, idx := 0, verdict := .none, fail := .none, event := .none
        outstanding := none, hostIn := s.hostIn.tail, rxMark := s.rxLog.length, txMark := s.txLog.length
        sinkMark := s.sinkTrace.length } ∧
      step s = .next t ∧
      (t.hostSample.reset = false →
        ∀ (r : TxResponse) (f : Feed TxResponse), t.txIn.pull = (some r, f) →
          ∃ u : State, step t = .next u ∧ u.txLog = t.txLog ++ [(0x15#8, .got r)] ∧ u.rxLog = t.rxLog ∧
            u.sinkTrace = t.sinkTrace)

/-- R204, R178: in any other state a `start` does not change what the step does. -/
def Obligations.StartIsIgnoredInASession : Prop :=
  ∀ (s : State) (rest : List HostSample), s.hostIn = { reset := false, start := true } :: rest →
    s.state ≠ .idle → s.state ≠ .complete → s.state ≠ .failed →
    step s = step { s with hostIn := { reset := false, start := false } :: rest }

/-- R202: in `IDLE` no register is written and nothing is issued, `done` is 0, and only `start` leaves it. That the
`event` output reads `EV_NONE` there is the model's reading of R43 (log entry 14). -/
def Obligations.IdleWaitsForStart : Prop :=
  ∀ s : State, s.state = .idle →
    s.done = false ∧
    (s.proceeds →
      step s = .next { s with hostIn := s.hostIn.tail, event := .none, outstanding := none }) ∧
    (∀ t : State, step s = .next t → t.state ≠ .idle → s.hostSample.start = true ∧ s.hostSample.reset = false)

/-- R180, R181, R182: in `COMPLETE` and `FAILED` no register is written and nothing is issued, `done` is 1, and only
`start` or reset leaves them. That the `event` output reads `EV_NONE` there is the model's reading of R43 (log
entry 14). -/
def Obligations.TerminalStatesHold : Prop :=
  ∀ s : State, (s.state = .complete ∨ s.state = .failed) →
    s.done = true ∧
    (s.proceeds →
      step s = .next { s with hostIn := s.hostIn.tail, event := .none, outstanding := none }) ∧
    (∀ t : State, step s = .next t → t.state ≠ s.state →
      (s.hostSample.reset = true ∧ t.state = .idle) ∨ (s.hostSample.start = true ∧ t.state = .hsNak))

/-! ## The rows of the handshake -/

/-- R101, R177: `TX.NAK` in `HS_NAK`. -/
def Obligations.HandshakeProbeSendsNak : Prop :=
  ∀ (s : State) (r : TxResponse) (f : Feed TxResponse),
    s.state = .hsNak → s.txIn.pull = (some r, f) →
    exec .txNak s = .next
      (if r = .ok ∨ s.params.txFailPolicy = .ignore then
        { s with
          state := .hsRead, event := .none, outstanding := none, txIn := f
          txLog := s.txLog ++ [(0x15#8, .got r)] }
      else
        { s with
          state := .failed, fail := .txWriteError, idx := 0, event := .none, outstanding := none, txIn := f
          txLog := s.txLog ++ [(0x15#8, .got r)] })

/-- R102: `HS.TIMEOUT`, with the strict comparison; the write of `retry` takes effect also on failure. -/
def Obligations.HandshakeTimeoutCountsToTheCeiling : Prop :=
  ∀ s : State, s.state = .hsRead →
    exec .hsTimeout s = .next
      (if s.retry.toNat + 1 > s.params.retryCeiling.val then
        { s with
          retry := s.retry + 1, state := .failed, fail := .handshakeTimeout, idx := 0, event := .none
          outstanding := none, rxLog := s.rxLog ++ [.got .timeout] }
      else
        { s with
          retry := s.retry + 1, state := .hsNak, event := .none, outstanding := none
          rxLog := s.rxLog ++ [.got .timeout] })

/-- R103: `HS.SOH` and `HS.EOT`. -/
def Obligations.HandshakeControlByteIsCarried : Prop :=
  ∀ s : State, s.state = .hsRead →
    exec .hsSoh s = .next { s with
      ctrl := 0x01#8, held := { s.held with ctrl := true }, state := .awaitCtrl, event := .none, outstanding := none
      rxLog := s.rxLog ++ [.got (.byte 0x01#8)] } ∧
    exec .hsEot s = .next { s with
      ctrl := 0x04#8, held := { s.held with ctrl := true }, state := .awaitCtrl, event := .none, outstanding := none
      rxLog := s.rxLog ++ [.got (.byte 0x04#8)] }

/-- R104: `HS.STRAY`. -/
def Obligations.HandshakeStrayByteIsIgnored : Prop :=
  ∀ (s : State) (b : Byte), s.state = .hsRead → b ≠ 0x01#8 → b ≠ 0x04#8 →
    exec (.hsStray b) s = .next { s with
      state := .hsNak, event := .none, outstanding := none, rxLog := s.rxLog ++ [.got (.byte b)] }

/-! ## Dispatch and the frame receiver -/

/-- R120, R177: `AC.EOT`. That `TX.ACK`, the other row that R120 names for this step, is the same step there is the
model's choice (log entry 13). -/
def Obligations.EotIsAcknowledgedAndCompletes : Prop :=
  ∀ (s : State) (r : TxResponse) (f : Feed TxResponse),
    s.state = .awaitCtrl → s.held.ctrl = true → s.ctrl = 0x04#8 → s.txIn.pull = (some r, f) →
    exec .acEot s = .next
      (if r = .ok ∨ s.params.txFailPolicy = .ignore then
        { s with
          state := .complete, event := .none, outstanding := none, txIn := f
          txLog := s.txLog ++ [(0x06#8, .got r)] }
      else
        { s with
          state := .failed, fail := .txWriteError, idx := 0, event := .none, outstanding := none, txIn := f
          txLog := s.txLog ++ [(0x06#8, .got r)] }) ∧
    exec .txAck s = exec .acEot s

/-- R121: `AC.SOH`. -/
def Obligations.SohStartsAFrame : Prop :=
  ∀ s : State, s.state = .awaitCtrl → s.held.ctrl = true → s.ctrl = 0x01#8 →
    exec .acSoh s = .next { s with idx := 0, state := .rxHeader, event := .none, outstanding := none }

/-- R122, R186, R45: the stops of the model. A step in `AWAIT_CTRL` with any other `ctrl` faults, one in a reserved state
does, and one that reads a register holding no value ("A read of it would fault"). That `AC.OTHER` faults in every other
state too, and with every byte, is the model's choice (log entry 7). -/
def Obligations.UnreachableStatesFault : Prop :=
  (∀ (b : Byte) (s : State), exec (.acOther b) s = .fault .modelUnreachable) ∧
  ∀ s : State, s.proceeds →
    (s.state = .awaitCtrl → s.held.ctrl = true → s.ctrl ≠ 0x01#8 → s.ctrl ≠ 0x04#8 →
      step s = .fault .modelUnreachable) ∧
    (s.state = .reserved14 ∨ s.state = .reserved15 → step s = .fault .modelUnreachable) ∧
    (s.state = .awaitCtrl → s.held.ctrl = false → step s = .fault .unspecifiedRead) ∧
    (s.state = .validating → s.held.hdrNum = false ∨ s.held.hdrCmp = false → step s = .fault .unspecifiedRead) ∧
    (s.state = .accWrite → (∃ i : Fin blockSize, s.held.buf[i] = false) → step s = .fault .unspecifiedRead)

/-- R123: `FR.HDR` at both positions, and `FR.HDR_TIMEOUT`. -/
def Obligations.HeaderBytesAreReceived : Prop :=
  ∀ (s : State) (b : Byte), s.state = .rxHeader →
    (s.idx = 0 → exec (.frHdr b) s = .next { s with
      hdrNum := b, held := { s.held with hdrNum := true }, idx := 1, event := .none, outstanding := none
      rxLog := s.rxLog ++ [.got (.byte b)] }) ∧
    (s.idx = 1 → exec (.frHdr b) s = .next { s with
      hdrCmp := b, held := { s.held with hdrCmp := true }, idx := 0, state := .rxPayload, event := .none
      outstanding := none, rxLog := s.rxLog ++ [.got (.byte b)] }) ∧
    (s.idx = 0 ∨ s.idx = 1 → exec .frHdrTimeout s = .next { s with
      fail := .headerReadError, state := .failed, idx := 0, event := .none, outstanding := none
      rxLog := s.rxLog ++ [.got .timeout] })

/-- R124: `FR.DATA` before and at the last position, and `FR.DATA_TIMEOUT` at every position. -/
def Obligations.PayloadBytesAreReceived : Prop :=
  ∀ (s : State) (b : Byte), s.state = .rxPayload →
    (s.idx.toNat < 127 → exec (.frData b) s = .next { s with
      buf := s.buf.setIfInBounds s.idx.toNat b
      held := { s.held with buf := s.held.buf.setIfInBounds s.idx.toNat true }
      idx := s.idx + 1, event := .none, outstanding := none, rxLog := s.rxLog ++ [.got (.byte b)] }) ∧
    (s.idx = 127 → exec (.frData b) s = .next { s with
      buf := s.buf.setIfInBounds 127 b, held := { s.held with buf := s.held.buf.setIfInBounds 127 true }
      idx := 0, state := .rxChecksum, event := .none, outstanding := none
      rxLog := s.rxLog ++ [.got (.byte b)] }) ∧
    (s.idx.toNat ≤ 127 → exec .frDataTimeout s = .next { s with
      fail := .dataReadError, state := .failed, idx := 0, event := .none, outstanding := none
      rxLog := s.rxLog ++ [.got .timeout] })

/-- R125: `FR.CKSUM` and `FR.CKSUM_TIMEOUT`. -/
def Obligations.ChecksumByteIsReceived : Prop :=
  ∀ (s : State) (b : Byte), s.state = .rxChecksum →
    exec (.frCksum b) s = .next { s with
      rxCk := b, held := { s.held with rxCk := true }, state := .validating, event := .none, outstanding := none
      rxLog := s.rxLog ++ [.got (.byte b)] } ∧
    exec .frCksumTimeout s = .next { s with
      fail := .checksumReadError, state := .failed, idx := 0, event := .none, outstanding := none
      rxLog := s.rxLog ++ [.got .timeout] }

/-! ## Validation, the sink and the reply -/

/-- R140, R141, R142, R143: the internal step of `VALIDATING`, on registers that hold values: the complement first,
and the checksum (of the natural-number sum of the payload) only when it passes. -/
def Obligations.ValidationDecidesInOrder : Prop :=
  ∀ s : State, s.proceeds → s.state = .validating → s.held.hdrNum = true → s.held.hdrCmp = true →
    (¬ (s.hdrNum.toNat + s.hdrCmp.toNat) % 256 = 0xFF →
      step s = .next { s with
        hostIn := s.hostIn.tail, verdict := .blockNumberMismatch, event := .blockNumberMismatch, state := .rejNak
        outstanding := none }) ∧
    ((s.hdrNum.toNat + s.hdrCmp.toNat) % 256 = 0xFF → s.bufHolds → s.held.rxCk = true →
      (¬ (s.buf.toList.map BitVec.toNat).sum % 256 = s.rxCk.toNat →
        step s = .next { s with
          hostIn := s.hostIn.tail, verdict := .checksumError, event := .checksumError, state := .rejNak
          outstanding := none }) ∧
      ((s.buf.toList.map BitVec.toNat).sum % 256 = s.rxCk.toNat →
        step s = .next { s with
          hostIn := s.hostIn.tail, verdict := .accept, event := .none, state := .accWrite, outstanding := none }))

/-- R144: `SK.WRITE` of the payload buffer, in a buffer that holds values. That a write which answered `SinkFail` is
recorded too, outside `SinkLog`, is the model's choice (log entry 8). -/
def Obligations.AcceptedPayloadIsWrittenToTheSink : Prop :=
  ∀ (s : State) (f : Feed SinkResponse), s.state = .accWrite → s.bufHolds →
    (s.sinkIn.pull = (some .ok, f) → exec (.skWrite s.buf) s = .next { s with
      state := .accAck, event := .none, outstanding := none, sinkIn := f
      sinkTrace := s.sinkTrace ++ [(s.buf, .got .ok)] }) ∧
    (s.sinkIn.pull = (some .fail, f) → exec (.skWrite s.buf) s = .next { s with
      fail := .sinkWriteError, state := .failed, idx := 0, event := .none, outstanding := none, sinkIn := f
      sinkTrace := s.sinkTrace ++ [(s.buf, .got .fail)] })

/-- R145: `TX.ACK` in `ACC_ACK`, with the sequence counter's advance modulo 256. -/
def Obligations.AcceptedBlockIsAcknowledged : Prop :=
  ∀ (s : State) (r : TxResponse) (f : Feed TxResponse),
    s.state = .accAck → s.txIn.pull = (some r, f) →
    exec .txAck s = .next
      (if r = .ok ∨ s.params.txFailPolicy = .ignore then
        { s with
          expBlk := BitVec.ofNat 8 ((s.expBlk.toNat + 1) % 256), state := .nextCtrl, event := .none
          outstanding := none, txIn := f, txLog := s.txLog ++ [(0x06#8, .got r)] }
      else
        { s with
          state := .failed, fail := .txWriteError, idx := 0, event := .none, outstanding := none, txIn := f
          txLog := s.txLog ++ [(0x06#8, .got r)] })

/-- R146, R177: `TX.NAK` in `REJ_NAK`. -/
def Obligations.RejectedBlockIsNaked : Prop :=
  ∀ (s : State) (r : TxResponse) (f : Feed TxResponse),
    s.state = .rejNak → s.txIn.pull = (some r, f) →
    exec .txNak s = .next
      (if r = .ok ∨ s.params.txFailPolicy = .ignore then
        { s with
          state := .nextCtrl, event := .none, outstanding := none, txIn := f
          txLog := s.txLog ++ [(0x15#8, .got r)] }
      else
        { s with
          state := .failed, fail := .txWriteError, idx := 0, event := .none, outstanding := none, txIn := f
          txLog := s.txLog ++ [(0x15#8, .got r)] })

/-- R160: `NC.TIMEOUT`. -/
def Obligations.NextBlockTimeoutIsFatal : Prop :=
  ∀ s : State, s.state = .nextCtrl →
    exec .ncTimeout s = .next { s with
      fail := .nextBlockTimeout, state := .failed, idx := 0, event := .none, outstanding := none
      rxLog := s.rxLog ++ [.got .timeout] }

/-- R161: `NC.SOH` and `NC.EOT`. -/
def Obligations.NextControlByteIsCarried : Prop :=
  ∀ s : State, s.state = .nextCtrl →
    exec .ncSoh s = .next { s with
      ctrl := 0x01#8, held := { s.held with ctrl := true }, state := .awaitCtrl, event := .none, outstanding := none
      rxLog := s.rxLog ++ [.got (.byte 0x01#8)] } ∧
    exec .ncEot s = .next { s with
      ctrl := 0x04#8, held := { s.held with ctrl := true }, state := .awaitCtrl, event := .none, outstanding := none
      rxLog := s.rxLog ++ [.got (.byte 0x04#8)] }

/-- R162: `NC.STRAY`. -/
def Obligations.NextStrayByteIsIgnored : Prop :=
  ∀ (s : State) (b : Byte), s.state = .nextCtrl → b ≠ 0x01#8 → b ≠ 0x04#8 →
    exec (.ncStray b) s = .next { s with
      event := .none, outstanding := none, rxLog := s.rxLog ++ [.got (.byte b)] }

/-! ## A step and what it fetches -/

/-- R8, R93: a step whose fetched symbol decodes to an instruction is that instruction's `exec` at the state the fetch
leaves. -/
def Obligations.StepRunsTheDecodedSymbol : Prop :=
  ∀ (s t : State) (c : Context) (w : List Byte) (i : Instr),
    fetch s = .symbol c w t → decode c w = .ok i → step s = exec i t

/-- R31, R50, R51, R52, R93: what each state decodes: a read's response in the state's context, `ctrl` in `AWAIT_CTRL`,
the byte or the payload it is about to put on a port. The host's sample of the step is taken. -/
def Obligations.EachStateFetchesItsSymbol : Prop :=
  ∀ s : State, s.proceeds →
    (∀ (b : Byte) (f : Feed RxResponse), s.rxIn.pull = (some (.byte b), f) →
      (s.state = .hsRead → fetch s = .symbol .hs [b] { s with hostIn := s.hostIn.tail, rxIn := f }) ∧
      (s.state = .rxHeader → fetch s = .symbol .frHdr [b] { s with hostIn := s.hostIn.tail, rxIn := f }) ∧
      (s.state = .rxPayload → fetch s = .symbol .frData [b] { s with hostIn := s.hostIn.tail, rxIn := f }) ∧
      (s.state = .rxChecksum → fetch s = .symbol .frCksum [b] { s with hostIn := s.hostIn.tail, rxIn := f }) ∧
      (s.state = .nextCtrl → fetch s = .symbol .nc [b] { s with hostIn := s.hostIn.tail, rxIn := f })) ∧
    (∀ f : Feed RxResponse, s.rxIn.pull = (some .timeout, f) →
      (s.state = .hsRead → fetch s = .symbol .hs [] { s with hostIn := s.hostIn.tail, rxIn := f }) ∧
      (s.state = .rxHeader → fetch s = .symbol .frHdr [] { s with hostIn := s.hostIn.tail, rxIn := f }) ∧
      (s.state = .rxPayload → fetch s = .symbol .frData [] { s with hostIn := s.hostIn.tail, rxIn := f }) ∧
      (s.state = .rxChecksum → fetch s = .symbol .frCksum [] { s with hostIn := s.hostIn.tail, rxIn := f }) ∧
      (s.state = .nextCtrl → fetch s = .symbol .nc [] { s with hostIn := s.hostIn.tail, rxIn := f })) ∧
    (s.state = .awaitCtrl → s.held.ctrl = true →
      fetch s = .symbol .ac [s.ctrl] { s with hostIn := s.hostIn.tail }) ∧
    (s.state = .hsNak ∨ s.state = .rejNak → fetch s = .symbol .tx [0x15#8] { s with hostIn := s.hostIn.tail }) ∧
    (s.state = .accAck → fetch s = .symbol .tx [0x06#8] { s with hostIn := s.hostIn.tail }) ∧
    (s.state = .accWrite → s.bufHolds → fetch s = .symbol .sk s.buf.toList { s with hostIn := s.hostIn.tail })

/-- R188, R207, R55: where the response has not arrived, the block holds in its state with the transaction outstanding
and every register, and so STATUS, unchanged. -/
def Obligations.WaitingHoldsEveryRegister : Prop :=
  ∀ s : State, s.proceeds →
    (∀ f : Feed RxResponse, s.request = some .rxRead → s.rxIn.pull = (none, f) →
      step s = .next { s with hostIn := s.hostIn.tail, rxIn := f, outstanding := some .rxRead }) ∧
    (∀ (b : Byte) (f : Feed TxResponse), s.request = some (.txWrite b) →
      (s.state = .awaitCtrl → s.held.ctrl = true) →
      s.txIn.pull = (none, f) →
      step s = .next { s with hostIn := s.hostIn.tail, txIn := f, outstanding := some (.txWrite b) }) ∧
    (∀ (p : Block) (f : Feed SinkResponse), s.request = some (.sinkWrite p) → s.bufHolds →
      s.sinkIn.pull = (none, f) →
      step s = .next { s with hostIn := s.hostIn.tail, sinkIn := f, outstanding := some (.sinkWrite p) })

/-- R207: a response or a request that the state does not ask for gets no step. -/
def Obligations.RowsOutsideTheirStateAreRefused : Prop :=
  ∀ (i : Instr) (s : State), i.wf = true → s.state.isReserved = false → s.state ≠ fetchState i →
    (i.context ≠ .tx → i.context ≠ .ac → exec i s = .refused .noSuchTransaction) ∧
    (i = .acSoh ∨ i = .acEot → exec i s = .refused .noSuchTransaction) ∧
    (i = .txAck → s.state ≠ .awaitCtrl → exec i s = .refused .noSuchTransaction) ∧
    (i = .txNak → s.state ≠ .rejNak → exec i s = .refused .noSuchTransaction)

/-- Where the meanings stop beside rule R122 (log entries 5 and 7): a catch-all control row with SOH or EOT; `idx` outside
its field; a checksum compared while the buffer or `rx_ck` holds no value; a dispatch row that is not the one `ctrl`
selects; a sink write of a buffer without a value, or of another payload than the buffer's; and any row in a reserved
state. -/
def Obligations.IllFormedUsesAreStopped : Prop :=
  (∀ (b : Byte) (s : State), b = 0x01#8 ∨ b = 0x04#8 →
    exec (.hsStray b) s = .refused .illFormedSymbol ∧ exec (.ncStray b) s = .refused .illFormedSymbol) ∧
  (∀ (b : Byte) (s : State),
    (s.state = .rxHeader → 2 ≤ s.idx.toNat →
      exec (.frHdr b) s = .fault .modelUnreachable ∧ exec .frHdrTimeout s = .fault .modelUnreachable) ∧
    (s.state = .rxPayload → 128 ≤ s.idx.toNat →
      exec (.frData b) s = .fault .modelUnreachable ∧ exec .frDataTimeout s = .fault .modelUnreachable)) ∧
  (∀ s : State, s.proceeds → s.state = .validating → s.held.hdrNum = true → s.held.hdrCmp = true →
    (s.hdrNum.toNat + s.hdrCmp.toNat) % 256 = 0xFF →
    s.held.rxCk = false ∨ (∃ i : Fin blockSize, s.held.buf[i] = false) →
    step s = .fault .unspecifiedRead) ∧
  (∀ s : State, s.state = .awaitCtrl → s.held.ctrl = true →
    (s.ctrl = 0x04#8 → exec .acSoh s = .refused .noSuchTransaction) ∧
    (s.ctrl = 0x01#8 →
      exec .acEot s = .refused .noSuchTransaction ∧ exec .txAck s = .refused .noSuchTransaction)) ∧
  (∀ (p : Block) (s : State), s.state = .accWrite →
    ((∃ i : Fin blockSize, s.held.buf[i] = false) → exec (.skWrite p) s = .fault .unspecifiedRead) ∧
    (s.bufHolds → p ≠ s.buf → exec (.skWrite p) s = .refused .noSuchTransaction)) ∧
  (∀ (i : Instr) (s : State), i.wf = true → s.state = .reserved14 ∨ s.state = .reserved15 →
    exec i s = .fault .modelUnreachable)

/-- The placing of an instruction (log entry 9): in the placed state the next step fetches exactly its symbol and runs
it, whatever the state before. -/
def Obligations.PlacedInstructionIsTheNextOneRun : Prop :=
  ∀ (i : Instr) (s : State), i.wf = true →
    ∃ t : State, fetch (s.withFetch i) = .symbol i.context (encode i) t ∧ step (s.withFetch i) = exec i t

/-! ## Encodings and checks -/

/-- R81, R82, R87, R88, R90, R93: words written out from the spec's maps, one or more of every context; and no byte is
illegal in any reading position. -/
def Obligations.SymbolsDecodeAsTheSpecMapsThem : Prop :=
  decode .hs [0b00000001#8] = .ok .hsSoh ∧ decode .hs [0b00000100#8] = .ok .hsEot ∧
  decode .hs [0b00000110#8] = .ok (.hsStray 0x06#8) ∧ decode .hs [] = .ok .hsTimeout ∧
  decode .ac [0b00000001#8] = .ok .acSoh ∧ decode .ac [0b00000100#8] = .ok .acEot ∧
  decode .ac [0b00011000#8] = .ok (.acOther 0x18#8) ∧
  decode .nc [0b00000001#8] = .ok .ncSoh ∧ decode .nc [0b00000100#8] = .ok .ncEot ∧
  decode .nc [0b00010101#8] = .ok (.ncStray 0x15#8) ∧ decode .nc [] = .ok .ncTimeout ∧
  decode .tx [0b00000110#8] = .ok .txAck ∧ decode .tx [0b00010101#8] = .ok .txNak ∧
  decode .frHdr [] = .ok .frHdrTimeout ∧ decode .frData [] = .ok .frDataTimeout ∧
  decode .frCksum [] = .ok .frCksumTimeout ∧
  ∀ b : Byte,
    decode .frHdr [b] = .ok (.frHdr b) ∧ decode .frData [b] = .ok (.frData b) ∧
    decode .frCksum [b] = .ok (.frCksum b) ∧
    (b ≠ 0x01#8 → b ≠ 0x04#8 → decode .hs [b] = .ok (.hsStray b) ∧ decode .nc [b] = .ok (.ncStray b))

/-- R80 to R93: decoding the symbol of a well-formed instruction in its context gives the instruction back. -/
def Obligations.DecodeOfEncodeIsTheInstruction : Prop :=
  ∀ i : Instr, i.wf = true → decode i.context (encode i) = .ok i

/-- R80 to R93: what decodes in a context is a well-formed instruction of that context, and its symbol is the decoded
one: each symbol of a context has one meaning. -/
def Obligations.EncodeOfDecodeIsTheSymbol : Prop :=
  ∀ (c : Context) (w : List Byte) (i : Instr), decode c w = .ok i → i.wf = true ∧ i.context = c ∧ encode i = w

/-- R85, R140: the three forms of the complement relation state one relation, which the check decides, and exactly one
complement byte is consistent with each block number. -/
def Obligations.ComplementFormsAgree : Prop :=
  ∀ b c : Byte,
    (hdrOk b c = true ↔ (b.toNat + c.toNat) % 256 = 0xFF) ∧
    ((b.toNat + c.toNat) % 256 = 0xFF ↔ c = 0xFF#8 - b) ∧
    ((b.toNat + c.toNat) % 256 = 0xFF ↔ c = b ^^^ 0xFF#8) ∧
    ∃! d : Byte, hdrOk b d = true

/-- R86, R141: the checksum is the payload's natural-number sum modulo 256, the check compares it with the received
byte, it does not depend on the order of the bytes, and a running sum modulo 256 gives the same. -/
def Obligations.ChecksumIsTheByteSum : Prop :=
  ∀ p : Block,
    (calcCk p).toNat = (p.toList.map BitVec.toNat).sum % 256 ∧
    calcCk p = p.toList.foldl (fun a b => a + b) 0#8 ∧
    (∀ k : Byte, ckOk p k = true ↔ (p.toList.map BitVec.toNat).sum % 256 = k.toNat) ∧
    ∀ q : Block, q.toList.Perm p.toList → calcCk q = calcCk p

/-- R54: the fields of the STATUS vector. -/
def Obligations.StatusLaysOutTheRegisters : Prop :=
  ∀ s : State,
    s.status.extractLsb' 0 4 = s.state.code ∧
    s.status.extractLsb' 4 3 = s.fail.code ∧
    (s.status.getLsbD 7 = true ↔ s.state = .complete ∨ s.state = .failed) ∧
    s.status.extractLsb' 8 8 = s.expBlk ∧
    s.status.extractLsb' 16 8 = s.retry ∧
    s.status.extractLsb' 24 2 = s.verdict.code ∧
    s.status.extractLsb' 26 6 = 0#6

/-! ## Whole-machine rules -/

/-- R47, R30, R33 to R42, R206: a step that the CTRL port leaves to the controller writes each register only in the
states whose rules write it, and no step ever changes the parameters. -/
def Obligations.RegistersAreWrittenOnlyByTheirRules : Prop :=
  ∀ s t : State, step s = .next t →
    t.params = s.params ∧
    (s.proceeds →
      (t.expBlk ≠ s.expBlk → s.state = .accAck) ∧
      (t.retry ≠ s.retry → s.state = .hsRead ∧ ∃ f : Feed RxResponse, s.rxIn.pull = (some .timeout, f)) ∧
      (t.verdict ≠ s.verdict → s.state = .validating) ∧
      (t.ctrl ≠ s.ctrl → (s.state = .hsRead ∨ s.state = .nextCtrl) ∧ (t.ctrl = 0x01#8 ∨ t.ctrl = 0x04#8)) ∧
      (t.hdrNum ≠ s.hdrNum → s.state = .rxHeader ∧ s.idx = 0) ∧
      (t.hdrCmp ≠ s.hdrCmp → s.state = .rxHeader ∧ s.idx = 1) ∧
      (∀ i : Fin blockSize, t.buf[i] ≠ s.buf[i] → s.state = .rxPayload ∧ s.idx.toNat = i.val) ∧
      (t.rxCk ≠ s.rxCk → s.state = .rxChecksum) ∧
      (t.idx ≠ s.idx → s.state = .rxHeader ∨ s.state = .rxPayload ∨ t.state = .rxHeader ∨ t.state = .failed) ∧
      (t.fail ≠ s.fail → t.state = .failed))

/-- R51, R90: where ports are legal, a step that transmits adds one byte to `TxLog`: ACK in `ACC_ACK` or on an EOT in
`AWAIT_CTRL`, NAK in `HS_NAK` or `REJ_NAK`, and no other. -/
def Obligations.OnlyAckAndNakAreTransmitted : Prop :=
  ∀ s t : State, PortsLegal s → step s = .next t → t.txLog ≠ s.txLog →
    ∃ (b : Byte) (r : Recorded TxResponse), t.txLog = s.txLog ++ [(b, r)] ∧
      ((b = 0x06#8 ∧ (s.state = .accAck ∨ (s.state = .awaitCtrl ∧ s.ctrl = 0x04#8))) ∨
        (b = 0x15#8 ∧ (s.state = .hsNak ∨ s.state = .rejNak)))

/-- R50, R52, R73: where ports are legal, a read happens only in the five reading states, and a sink write only in
`ACC_WRITE` and only of the whole buffer; the sink's record only grows. That it does so across `start` and reset too,
while R73 speaks of one session, and that failed and dropped writes are recorded in it, is the model's choice (log
entry 8). -/
def Obligations.ReadsAndSinkWritesHappenInTheirStates : Prop :=
  ∀ s t : State, PortsLegal s → step s = .next t →
    (t.rxLog = s.rxLog ∨
      ((∃ e : Recorded RxResponse, t.rxLog = s.rxLog ++ [e]) ∧
        (s.state = .hsRead ∨ s.state = .rxHeader ∨ s.state = .rxPayload ∨ s.state = .rxChecksum ∨
          s.state = .nextCtrl))) ∧
    (t.sinkTrace = s.sinkTrace ∨
      (s.state = .accWrite ∧ ∃ r : Recorded SinkResponse, t.sinkTrace = s.sinkTrace ++ [(s.buf, r)]))

/-- R8, R65, R67: a step makes at most one transaction. That no history is cut back by `start` or reset either is the
model's choice (log entry 8). -/
def Obligations.OneTransactionAtMostPerStep : Prop :=
  ∀ s t : State, step s = .next t →
    s.rxLog <+: t.rxLog ∧ s.txLog <+: t.txLog ∧ s.sinkTrace <+: t.sinkTrace ∧
    t.rxLog.length + t.txLog.length + t.sinkTrace.length ≤
      s.rxLog.length + s.txLog.length + s.sinkTrace.length + 1

/-- R180: `COMPLETE` is entered only from `AWAIT_CTRL` on an EOT, by a step that transmits the ACK. -/
def Obligations.CompleteIsEnteredOnlyOnEot : Prop :=
  ∀ s t : State, step s = .next t → s.state ≠ .complete → t.state = .complete →
    s.state = .awaitCtrl ∧ s.ctrl = 0x04#8 ∧ ∃ r : TxResponse, t.txLog = s.txLog ++ [(0x06#8, .got r)]

/-- R13, R170, R172, R176, R181: a step that enters `FAILED` writes the reason of the state it was in, `state`, `idx`
and `event`, and `retry` only for the handshake's ceiling; every other register keeps its value. -/
def Obligations.FailuresArePreciseAndRecordTheReason : Prop :=
  ∀ s t : State, step s = .next t → s.state ≠ .failed → t.state = .failed →
    (t.fail = .handshakeTimeout ∧ s.state = .hsRead ∧ t.retry = s.retry + 1 ∨
      t.retry = s.retry ∧
        (t.fail = .headerReadError ∧ s.state = .rxHeader ∨ t.fail = .dataReadError ∧ s.state = .rxPayload ∨
          t.fail = .checksumReadError ∧ s.state = .rxChecksum ∨ t.fail = .nextBlockTimeout ∧ s.state = .nextCtrl ∨
          t.fail = .sinkWriteError ∧ s.state = .accWrite ∨
          t.fail = .txWriteError ∧ s.params.txFailPolicy = .fatal ∧
            (s.state = .hsNak ∨ s.state = .awaitCtrl ∨ s.state = .accAck ∨ s.state = .rejNak))) ∧
    t.idx = 0 ∧ t.event = .none ∧ t.expBlk = s.expBlk ∧ t.verdict = s.verdict ∧ t.ctrl = s.ctrl ∧
    t.hdrNum = s.hdrNum ∧ t.hdrCmp = s.hdrCmp ∧ t.buf = s.buf ∧ t.rxCk = s.rxCk ∧ t.held = s.held

/-- R43, R143 (the hold while a transaction waits is the model's choice, log entry 3): an `event` other than `EV_NONE`
is driven only by the step of `VALIDATING` that rejects, with the verdict's value, and the next step that completes
ends it. -/
def Obligations.EventIsDrivenForOneStep : Prop :=
  ∀ s t : State, step s = .next t → t.event ≠ .none →
    (s.state = .validating ∧ t.state = .rejNak ∧
      (t.event = .blockNumberMismatch ∧ t.verdict = .blockNumberMismatch ∨
        t.event = .checksumError ∧ t.verdict = .checksumError)) ∨
    (t.outstanding ≠ none ∧ t.state = s.state ∧ t.event = s.event)

/-- R147: the sequence counter is never consulted: a step from a state with another `exp_blk` differs in nothing but
`exp_blk`. -/
def Obligations.SequenceCounterIsNeverConsulted : Prop :=
  ∀ (s t : State) (e : Byte), step s = .next t →
    ∃ u : State, step { s with expBlk := e } = .next u ∧ { u with expBlk := t.expBlk } = t

/-! ## Invariants -/

/-- R44 and the laws of the histories hold in the reset state. -/
def Obligations.ResetMeetsEveryInvariant : Prop :=
  Inv State.reset ∧ FrameOnWire State.reset ∧ PortsLegal State.reset ∧ OnlyAckNak State.reset ∧
    SinkBeforeAck State.reset ∧ MarksWithin State.reset ∧ CounterLaw State.reset ∧ HandshakeLaw State.reset ∧
    RetryBounded State.reset

/-- R44: every step keeps the invariants of the registers. -/
def Obligations.StepKeepsTheRegisterInvariants : Prop :=
  ∀ s t : State, Inv s → step s = .next t → Inv t

/-- R44 item 4, R62, R83, R84: the frame registers hold what the wire brought since the SOH, in arrival order. -/
def Obligations.StepKeepsTheFrameAsReceived : Prop :=
  ∀ s t : State, Inv s → FrameOnWire s → step s = .next t → FrameOnWire t

/-- R51, R67, R68, R90: one transaction outstanding at most and the state's own, only ACK and NAK ever offered, and the
sink's `SinkOk` before the ACK. -/
def Obligations.StepKeepsThePortDiscipline : Prop :=
  ∀ s t : State, PortsLegal s → OnlyAckNak s → SinkBeforeAck s → step s = .next t →
    PortsLegal t ∧ OnlyAckNak t ∧ SinkBeforeAck t

/-- R147, R34: the counter law, through every step, session and reset. -/
def Obligations.StepKeepsTheCounterLaw : Prop :=
  ∀ s t : State, Inv s → MarksWithin s → CounterLaw s → step s = .next t → MarksWithin t ∧ CounterLaw t

/-- R100, R105, R106: the law of the handshake, through every step. -/
def Obligations.StepKeepsTheHandshakeLaw : Prop :=
  ∀ s t : State, Inv s → MarksWithin s → HandshakeLaw s → step s = .next t → HandshakeLaw t

/-- R35, R149: `retry` stays within its bound, and so never wraps. -/
def Obligations.StepKeepsTheRetryBound : Prop :=
  ∀ s t : State, Inv s → RetryBounded s → step s = .next t → RetryBounded t

/-- R44, R186: from every state of the invariants no run ever stops, whatever the host and the collaborators do: no
fault and no refusal is met. -/
def Obligations.InvariantRunsNeverStop : Prop :=
  ∀ s : State, Inv s → NeverStops s

/-! ## Runs of many steps -/

/-- R126 item 1, R212: from `AWAIT_CTRL` with SOH, 131 bytes make a frame in 132 steps, wherever they stand in their
registers; nothing is transmitted or stored, and the counters and the verdict stay. -/
def Obligations.FrameIsReceivedIn132Steps : Prop :=
  ∀ (s : State) (n c k : Byte) (p : Block) (rest : List (Option RxResponse)),
    s.quietHost → s.state = .awaitCtrl → s.held.ctrl = true → s.ctrl = 0x01#8 →
    s.rxIn.queue = (frame n c p k).map some ++ rest →
    ∃ t : State, core.run 132 s = .next t ∧
      t.state = .validating ∧ t.hdrNum = n ∧ t.hdrCmp = c ∧ t.buf = p ∧ t.rxCk = k ∧
      t.held = { s.held with
        hdrNum := true, hdrCmp := true, rxCk := true, buf := Vector.replicate blockSize true } ∧
      t.rxIn = { s.rxIn with queue := rest } ∧
      t.rxLog = s.rxLog ++ (frame n c p k).map .got ∧
      t.txLog = s.txLog ∧ t.sinkTrace = s.sinkTrace ∧ t.expBlk = s.expBlk ∧ t.retry = s.retry ∧
      t.verdict = s.verdict ∧ t.fail = s.fail ∧
      t.quietHost ∧ t.params = s.params ∧ t.txIn = s.txIn ∧ t.sinkIn = s.sinkIn

/-- R126 items 1 to 3: a timeout after any number of the frame's bytes fails with the reason of its position, and
leaves the sink's record, the counters and the verdict as they were at the SOH. -/
def Obligations.FrameTimeoutFailsByPosition : Prop :=
  ∀ (s : State) (received : List Byte) (rest : List (Option RxResponse)),
    s.quietHost → s.state = .awaitCtrl → s.held.ctrl = true → s.ctrl = 0x01#8 → received.length ≤ 130 →
    s.rxIn.queue = received.map (fun b => some (RxResponse.byte b)) ++ some .timeout :: rest →
    ∃ t : State, core.run (received.length + 2) s = .next t ∧
      t.state = .failed ∧
      t.fail =
        (if received.length < 2 then .headerReadError
        else if received.length < 130 then .dataReadError
        else .checksumReadError) ∧
      t.txLog = s.txLog ∧ t.sinkTrace = s.sinkTrace ∧ t.expBlk = s.expBlk ∧ t.retry = s.retry ∧
      t.verdict = s.verdict

/-- R148, R150 items 1 to 3: a frame in `VALIDATING` whose checks pass is stored once and acknowledged, and the counter
advances; one whose checks fail gets exactly one NAK, and neither the sink nor the counter moves. Stated with a quiet
host and `SinkOk` and `TxOk` answers. -/
def Obligations.ValidatedFrameIsAnswered : Prop :=
  ∀ s : State, s.quietHost → s.state = .validating → s.held.hdrNum = true → s.held.hdrCmp = true →
    s.bufHolds → s.held.rxCk = true → s.txIn = Feed.always .ok → s.sinkIn = Feed.always .ok →
    (s.hdrCmp = 0xFF#8 - s.hdrNum ∧ s.rxCk = calcCk s.buf →
      ∃ t : State, core.run 3 s = .next t ∧ t.state = .nextCtrl ∧ t.verdict = .accept ∧
        t.sinkTrace = s.sinkTrace ++ [(s.buf, .got .ok)] ∧ t.txLog = s.txLog ++ [(0x06#8, .got .ok)] ∧
        t.expBlk = s.expBlk + 1 ∧ t.rxLog = s.rxLog) ∧
    (¬ (s.hdrCmp = 0xFF#8 - s.hdrNum ∧ s.rxCk = calcCk s.buf) →
      ∃ t : State, core.run 2 s = .next t ∧ t.state = .nextCtrl ∧
        t.verdict =
          (if s.hdrCmp = 0xFF#8 - s.hdrNum then .checksumError else .blockNumberMismatch) ∧
        t.sinkTrace = s.sinkTrace ∧ t.txLog = s.txLog ++ [(0x15#8, .got .ok)] ∧ t.expBlk = s.expBlk ∧
        t.rxLog = s.rxLog)

/-- R147, R150 item 4, R212: any list of good blocks, with any block numbers, repeated or out of order, is stored
whole and in order, and an EOT completes the transfer: 136 steps a block. -/
def Obligations.EveryGoodTransferCompletes : Prop :=
  ∀ (s : State) (blocks : List (Byte × Block)) (rest : List (Option RxResponse)),
    s.quietHost → s.state = .hsNak → s.txIn = Feed.always .ok → s.sinkIn = Feed.always .ok →
    s.rxIn.queue = (blocks.flatMap wireBlock ++ [RxResponse.byte 0x04#8]).map some ++ rest →
    ∃ t : State, core.run (2 + 136 * blocks.length + 1) s = .next t ∧
      t.state = .complete ∧ t.fail = s.fail ∧ t.retry = s.retry ∧
      t.expBlk = s.expBlk + BitVec.ofNat 8 blocks.length ∧
      t.sinkTrace = s.sinkTrace ++ blocks.map (fun b => (b.2, .got .ok)) ∧
      t.txLog = s.txLog ++ (0x15#8, .got .ok) :: List.replicate (blocks.length + 1) (0x06#8, .got .ok) ∧
      t.rxIn = { s.rxIn with queue := rest }

/-- R102, R105 item 2, R106, R211: against a silent sender the handshake sends one NAK for each timeout left up to the
ceiling and one more, and then fails, with the sink untouched. -/
def Obligations.SilentSenderFailsTheHandshake : Prop :=
  ∀ s : State, s.quietHost → s.state = .hsNak → s.retry.toNat ≤ s.params.retryCeiling.val →
    s.txIn = Feed.always .ok → s.rxIn = Feed.always .timeout →
    ∃ t : State,
      core.run (2 * (s.params.retryCeiling.val + 1 - s.retry.toNat)) s = .next t ∧
      t.state = .failed ∧ t.fail = .handshakeTimeout ∧ t.retry.toNat = s.params.retryCeiling.val + 1 ∧
      t.txLog = s.txLog ++
        List.replicate (s.params.retryCeiling.val + 1 - s.retry.toNat) (0x15#8, .got .ok) ∧
      t.sinkTrace = s.sinkTrace ∧ t.expBlk = s.expBlk

/-- R107, R163, R214 items 1 to 3, R147: runs that do not end. Whatever list of stray bytes comes over and over, the
handshake goes on, one NAK for each and `retry` unmoved, and the inter-block wait goes on with nothing transmitted. And
whatever list of frames comes over and over, valid or not, each gets its reply, the valid ones are stored, and the
counter wraps; stated with `TxOk` and `SinkOk` answers. `n` counts the repetitions. -/
def Obligations.EndlessInputNeverEnds : Prop :=
  ∀ (s : State) (n : Nat), s.quietHost →
    (∀ bytes : List Byte, (∀ b ∈ bytes, b ≠ 0x01#8 ∧ b ≠ 0x04#8) → s.rxIn = Feed.endless (bytes.map .byte) →
      (s.state = .hsNak → s.txIn = Feed.always .ok →
        ∃ t : State, core.run (2 * (n * bytes.length)) s = .next t ∧ t.state = .hsNak ∧ t.retry = s.retry ∧
          t.txLog = s.txLog ++ List.replicate (n * bytes.length) (0x15#8, .got .ok) ∧
          t.rxLog = s.rxLog ++ (List.replicate n bytes).flatten.map (fun b => .got (.byte b)) ∧ t.rxIn = s.rxIn) ∧
      (s.state = .nextCtrl →
        ∃ t : State, core.run (n * bytes.length) s = .next t ∧ t.state = .nextCtrl ∧ t.txLog = s.txLog ∧
          t.fail = s.fail ∧
          t.rxLog = s.rxLog ++ (List.replicate n bytes).flatten.map (fun b => .got (.byte b)) ∧ t.rxIn = s.rxIn)) ∧
    (∀ frames : List WireFrame, s.rxIn = Feed.endless (frames.flatMap WireFrame.wire) → s.state = .nextCtrl →
      s.txIn = Feed.always .ok → s.sinkIn = Feed.always .ok →
      ∃ t : State, core.run (n * (frames.map WireFrame.steps).sum) s = .next t ∧ t.state = .nextCtrl ∧
        t.fail = s.fail ∧ t.rxIn = s.rxIn ∧
        t.txLog = s.txLog ++ (List.replicate n frames).flatten.map (fun f => (f.reply, .got .ok)) ∧
        t.sinkTrace = s.sinkTrace ++
          ((List.replicate n frames).flatten.filter WireFrame.valid).map (fun f => (f.payload, .got .ok)) ∧
        t.expBlk = s.expBlk + BitVec.ofNat 8 (n * (frames.filter WireFrame.valid).length))

/-- R207, R214 item 4: a channel that never answers a read leaves the block stuck in the requesting state for ever: not
a failure, and not final. That the `event` output is held with the registers is the model's choice (log entry 3). -/
def Obligations.UnansweredReadIsStuck : Prop :=
  ∀ (s : State) (n : Nat), s.quietHost → s.request = some .rxRead → s.rxIn = Feed.silent →
    core.run (n + 1) s = .next { s with outstanding := some .rxRead }

/-- R64, R65, R73, R201 (I4, I5, I6): how each step moves what the collaborators may hold. A step keeps what the sink
may hold as a prefix, unless a reset aborts a sink write, and then the sink is unconstrained; `SinkOk` adds the block,
`SinkFail` any prefix of it. The sender gets the byte of a write that answered `TxOk`, and that of a failed or aborted
one or not. A read consumes its byte, a timeout none, and an aborted read a byte or none. And where every recorded write
was answered with success, nothing is open. The model's choices in it: these are relations beside the state (log entry
12), which count no transaction while it is outstanding (log entry 16), with one sink, sender and channel for the whole
run, across `start` and reset (log entry 17). -/
def Obligations.CollaboratorsHoldWhatWasAnswered : Prop :=
  (∀ (s t : State) (before after : List Byte), step s = .next t →
    ((∀ p : Block, ¬ s.aborts (.sinkWrite p)) →
      (SinkMayHold t before after → ∃ mid : List Byte, SinkMayHold s before mid ∧ mid <+: after) ∧
      (SinkMayHold s before after → ∃ more : List Byte, SinkMayHold t before (after ++ more))) ∧
    (∀ p : Block, s.aborts (.sinkWrite p) → SinkMayHold t before after) ∧
    (s.proceeds → s.state = .accWrite →
      (∀ f : Feed SinkResponse, s.sinkIn.pull = (some .ok, f) →
        (SinkMayHold t before after ↔
          ∃ mid : List Byte, SinkMayHold s before mid ∧ after = mid ++ s.buf.toList)) ∧
      (∀ f : Feed SinkResponse, s.sinkIn.pull = (some .fail, f) →
        (SinkMayHold t before after ↔
          ∃ (mid : List Byte) (n : Nat), SinkMayHold s before mid ∧ after = mid ++ s.buf.toList.take n))) ∧
    (∀ (b : Byte) (f : Feed TxResponse), s.proceeds → s.request = some (.txWrite b) →
      (s.txIn.pull = (some .ok, f) →
        (SenderMayHave t before after ↔ ∃ mid : List Byte, SenderMayHave s before mid ∧ after = mid ++ [b])) ∧
      (s.txIn.pull = (some .fail, f) →
        (SenderMayHave t before after ↔
          ∃ mid : List Byte, SenderMayHave s before mid ∧ (after = mid ∨ after = mid ++ [b])))) ∧
    (∀ b : Byte, s.aborts (.txWrite b) →
      (SenderMayHave t before after ↔
        ∃ mid : List Byte, SenderMayHave s before mid ∧ (after = mid ∨ after = mid ++ [b]))) ∧
    (s.proceeds → s.request = some .rxRead →
      (∀ (b : Byte) (f : Feed RxResponse), s.rxIn.pull = (some (.byte b), f) →
        (ChannelMayHaveGiven t before after ↔
          ∃ mid : List Byte, ChannelMayHaveGiven s before mid ∧ after = mid ++ [b])) ∧
      (∀ f : Feed RxResponse, s.rxIn.pull = (some .timeout, f) →
        (ChannelMayHaveGiven t before after ↔ ChannelMayHaveGiven s before after))) ∧
    (s.aborts .rxRead →
      (ChannelMayHaveGiven t before after ↔
        ∃ mid : List Byte, ChannelMayHaveGiven s before mid ∧
          (after = mid ∨ ∃ b : Byte, after = mid ++ [b])))) ∧
  (∀ (s : State) (before after : List Byte),
    ((∀ e ∈ s.sinkTrace, e.2 = .got .ok) →
      (SinkMayHold s before after ↔ after = before ++ (s.sinkLog.map Vector.toList).flatten)) ∧
    ((∀ e ∈ s.txLog, e.2 = .got .ok) → (SenderMayHave s before after ↔ after = before ++ s.txLog.map Prod.fst)) ∧
    (SenderMayHave s before after → ∃ got : List Byte, after = before ++ got ∧ got.Sublist (s.txLog.map Prod.fst)))

end
end

