-- ==== Sys2Proof/Laws/Decode.lean ====
section
/-!
SUPPORT. What each decoding function can answer.
-/
namespace Sys2Proof

@[simp] theorem decodeCtrl_soh : decodeCtrl soh = .soh := by decide

@[simp] theorem decodeCtrl_eot : decodeCtrl eot = .eot := by decide

theorem isControlByte_iff (b : Byte) : isControlByte b = true ↔ b = soh ∨ b = eot := by
  simp [isControlByte]

theorem decodeCtrl_of_stray {b : Byte} (h : isControlByte b = false) : decodeCtrl b = .stray := by
  simp only [isControlByte, Bool.or_eq_false_iff, beq_eq_false_iff_ne] at h
  simp [decodeCtrl, h.1, h.2]

theorem decodeCtrl_cases (b : Byte) :
    (b = soh ∧ decodeCtrl b = .soh) ∨ (b = eot ∧ decodeCtrl b = .eot) ∨
      (isControlByte b = false ∧ decodeCtrl b = .stray) := by
  cases hb : isControlByte b with
  | false => exact .inr (.inr ⟨rfl, decodeCtrl_of_stray hb⟩)
  | true =>
    rcases (isControlByte_iff b).1 hb with rfl | rfl
    · exact .inl ⟨rfl, decodeCtrl_soh⟩
    · exact .inr (.inl ⟨rfl, decodeCtrl_eot⟩)

@[simp] theorem decode_tx_ack : decode .tx [ack] = .ok .txAck := by decide

@[simp] theorem decode_tx_nak : decode .tx [nak] = .ok .txNak := by decide

@[simp] theorem decode_sk_block (p : Block) : decode .sk p.toList = .ok (.skWrite p) := by
  show decodeSk p.toList = _
  unfold decodeSk
  rw [dif_pos (by simp)]
  rfl

end Sys2Proof
end

