-- ==== Sys2Proof/Laws/State.lean ====
section
/-!
SUPPORT. For every update of the state, what each field is after it.
-/
namespace Sys2Proof.Machine

variable (s : State)

@[simp] theorem State.advance_params (c : Ctl) : (s.advance c).params = s.params := rfl
@[simp] theorem State.advance_state (c : Ctl) : (s.advance c).state = c := rfl
@[simp] theorem State.advance_ctrl (c : Ctl) : (s.advance c).ctrl = s.ctrl := rfl
@[simp] theorem State.advance_expBlk (c : Ctl) : (s.advance c).expBlk = s.expBlk := rfl
@[simp] theorem State.advance_retry (c : Ctl) : (s.advance c).retry = s.retry := rfl
@[simp] theorem State.advance_hdrNum (c : Ctl) : (s.advance c).hdrNum = s.hdrNum := rfl
@[simp] theorem State.advance_hdrCmp (c : Ctl) : (s.advance c).hdrCmp = s.hdrCmp := rfl
@[simp] theorem State.advance_buf (c : Ctl) : (s.advance c).buf = s.buf := rfl
@[simp] theorem State.advance_rxCk (c : Ctl) : (s.advance c).rxCk = s.rxCk := rfl
@[simp] theorem State.advance_idx (c : Ctl) : (s.advance c).idx = s.idx := rfl
@[simp] theorem State.advance_verdict (c : Ctl) : (s.advance c).verdict = s.verdict := rfl
@[simp] theorem State.advance_fail (c : Ctl) : (s.advance c).fail = s.fail := rfl
@[simp] theorem State.advance_event (c : Ctl) : (s.advance c).event = .none := rfl
@[simp] theorem State.advance_held (c : Ctl) : (s.advance c).held = s.held := rfl
@[simp] theorem State.advance_outstanding (c : Ctl) : (s.advance c).outstanding = none := rfl
@[simp] theorem State.advance_rxIn (c : Ctl) : (s.advance c).rxIn = s.rxIn := rfl
@[simp] theorem State.advance_txIn (c : Ctl) : (s.advance c).txIn = s.txIn := rfl
@[simp] theorem State.advance_sinkIn (c : Ctl) : (s.advance c).sinkIn = s.sinkIn := rfl
@[simp] theorem State.advance_hostIn (c : Ctl) : (s.advance c).hostIn = s.hostIn := rfl
@[simp] theorem State.advance_rxLog (c : Ctl) : (s.advance c).rxLog = s.rxLog := rfl
@[simp] theorem State.advance_txLog (c : Ctl) : (s.advance c).txLog = s.txLog := rfl
@[simp] theorem State.advance_sinkTrace (c : Ctl) : (s.advance c).sinkTrace = s.sinkTrace := rfl
@[simp] theorem State.advance_rxMark (c : Ctl) : (s.advance c).rxMark = s.rxMark := rfl
@[simp] theorem State.advance_txMark (c : Ctl) : (s.advance c).txMark = s.txMark := rfl
@[simp] theorem State.advance_sinkMark (c : Ctl) : (s.advance c).sinkMark = s.sinkMark := rfl

@[simp] theorem State.raise_params (r : FailReason) : (s.raise r).params = s.params := rfl
@[simp] theorem State.raise_state (r : FailReason) : (s.raise r).state = .failed := rfl
@[simp] theorem State.raise_ctrl (r : FailReason) : (s.raise r).ctrl = s.ctrl := rfl
@[simp] theorem State.raise_expBlk (r : FailReason) : (s.raise r).expBlk = s.expBlk := rfl
@[simp] theorem State.raise_retry (r : FailReason) : (s.raise r).retry = s.retry := rfl
@[simp] theorem State.raise_hdrNum (r : FailReason) : (s.raise r).hdrNum = s.hdrNum := rfl
@[simp] theorem State.raise_hdrCmp (r : FailReason) : (s.raise r).hdrCmp = s.hdrCmp := rfl
@[simp] theorem State.raise_buf (r : FailReason) : (s.raise r).buf = s.buf := rfl
@[simp] theorem State.raise_rxCk (r : FailReason) : (s.raise r).rxCk = s.rxCk := rfl
@[simp] theorem State.raise_idx (r : FailReason) : (s.raise r).idx = 0 := rfl
@[simp] theorem State.raise_verdict (r : FailReason) : (s.raise r).verdict = s.verdict := rfl
@[simp] theorem State.raise_fail (r : FailReason) : (s.raise r).fail = r := rfl
@[simp] theorem State.raise_event (r : FailReason) : (s.raise r).event = .none := rfl
@[simp] theorem State.raise_held (r : FailReason) : (s.raise r).held = s.held := rfl
@[simp] theorem State.raise_outstanding (r : FailReason) : (s.raise r).outstanding = none := rfl
@[simp] theorem State.raise_rxIn (r : FailReason) : (s.raise r).rxIn = s.rxIn := rfl
@[simp] theorem State.raise_txIn (r : FailReason) : (s.raise r).txIn = s.txIn := rfl
@[simp] theorem State.raise_sinkIn (r : FailReason) : (s.raise r).sinkIn = s.sinkIn := rfl
@[simp] theorem State.raise_hostIn (r : FailReason) : (s.raise r).hostIn = s.hostIn := rfl
@[simp] theorem State.raise_rxLog (r : FailReason) : (s.raise r).rxLog = s.rxLog := rfl
@[simp] theorem State.raise_txLog (r : FailReason) : (s.raise r).txLog = s.txLog := rfl
@[simp] theorem State.raise_sinkTrace (r : FailReason) : (s.raise r).sinkTrace = s.sinkTrace := rfl
@[simp] theorem State.raise_rxMark (r : FailReason) : (s.raise r).rxMark = s.rxMark := rfl
@[simp] theorem State.raise_txMark (r : FailReason) : (s.raise r).txMark = s.txMark := rfl
@[simp] theorem State.raise_sinkMark (r : FailReason) : (s.raise r).sinkMark = s.sinkMark := rfl

@[simp] theorem State.waitFor_params (r : Request) : (s.waitFor r).params = s.params := rfl
@[simp] theorem State.waitFor_state (r : Request) : (s.waitFor r).state = s.state := rfl
@[simp] theorem State.waitFor_ctrl (r : Request) : (s.waitFor r).ctrl = s.ctrl := rfl
@[simp] theorem State.waitFor_expBlk (r : Request) : (s.waitFor r).expBlk = s.expBlk := rfl
@[simp] theorem State.waitFor_retry (r : Request) : (s.waitFor r).retry = s.retry := rfl
@[simp] theorem State.waitFor_hdrNum (r : Request) : (s.waitFor r).hdrNum = s.hdrNum := rfl
@[simp] theorem State.waitFor_hdrCmp (r : Request) : (s.waitFor r).hdrCmp = s.hdrCmp := rfl
@[simp] theorem State.waitFor_buf (r : Request) : (s.waitFor r).buf = s.buf := rfl
@[simp] theorem State.waitFor_rxCk (r : Request) : (s.waitFor r).rxCk = s.rxCk := rfl
@[simp] theorem State.waitFor_idx (r : Request) : (s.waitFor r).idx = s.idx := rfl
@[simp] theorem State.waitFor_verdict (r : Request) : (s.waitFor r).verdict = s.verdict := rfl
@[simp] theorem State.waitFor_fail (r : Request) : (s.waitFor r).fail = s.fail := rfl
@[simp] theorem State.waitFor_event (r : Request) : (s.waitFor r).event = s.event := rfl
@[simp] theorem State.waitFor_held (r : Request) : (s.waitFor r).held = s.held := rfl
@[simp] theorem State.waitFor_outstanding (r : Request) : (s.waitFor r).outstanding = some r := rfl
@[simp] theorem State.waitFor_rxIn (r : Request) : (s.waitFor r).rxIn = s.rxIn := rfl
@[simp] theorem State.waitFor_txIn (r : Request) : (s.waitFor r).txIn = s.txIn := rfl
@[simp] theorem State.waitFor_sinkIn (r : Request) : (s.waitFor r).sinkIn = s.sinkIn := rfl
@[simp] theorem State.waitFor_hostIn (r : Request) : (s.waitFor r).hostIn = s.hostIn := rfl
@[simp] theorem State.waitFor_rxLog (r : Request) : (s.waitFor r).rxLog = s.rxLog := rfl
@[simp] theorem State.waitFor_txLog (r : Request) : (s.waitFor r).txLog = s.txLog := rfl
@[simp] theorem State.waitFor_sinkTrace (r : Request) : (s.waitFor r).sinkTrace = s.sinkTrace := rfl
@[simp] theorem State.waitFor_rxMark (r : Request) : (s.waitFor r).rxMark = s.rxMark := rfl
@[simp] theorem State.waitFor_txMark (r : Request) : (s.waitFor r).txMark = s.txMark := rfl
@[simp] theorem State.waitFor_sinkMark (r : Request) : (s.waitFor r).sinkMark = s.sinkMark := rfl

@[simp] theorem State.logRx_params (r : RxResponse) : (s.logRx r).params = s.params := rfl
@[simp] theorem State.logRx_state (r : RxResponse) : (s.logRx r).state = s.state := rfl
@[simp] theorem State.logRx_ctrl (r : RxResponse) : (s.logRx r).ctrl = s.ctrl := rfl
@[simp] theorem State.logRx_expBlk (r : RxResponse) : (s.logRx r).expBlk = s.expBlk := rfl
@[simp] theorem State.logRx_retry (r : RxResponse) : (s.logRx r).retry = s.retry := rfl
@[simp] theorem State.logRx_hdrNum (r : RxResponse) : (s.logRx r).hdrNum = s.hdrNum := rfl
@[simp] theorem State.logRx_hdrCmp (r : RxResponse) : (s.logRx r).hdrCmp = s.hdrCmp := rfl
@[simp] theorem State.logRx_buf (r : RxResponse) : (s.logRx r).buf = s.buf := rfl
@[simp] theorem State.logRx_rxCk (r : RxResponse) : (s.logRx r).rxCk = s.rxCk := rfl
@[simp] theorem State.logRx_idx (r : RxResponse) : (s.logRx r).idx = s.idx := rfl
@[simp] theorem State.logRx_verdict (r : RxResponse) : (s.logRx r).verdict = s.verdict := rfl
@[simp] theorem State.logRx_fail (r : RxResponse) : (s.logRx r).fail = s.fail := rfl
@[simp] theorem State.logRx_event (r : RxResponse) : (s.logRx r).event = s.event := rfl
@[simp] theorem State.logRx_held (r : RxResponse) : (s.logRx r).held = s.held := rfl
@[simp] theorem State.logRx_outstanding (r : RxResponse) : (s.logRx r).outstanding = s.outstanding := rfl
@[simp] theorem State.logRx_rxIn (r : RxResponse) : (s.logRx r).rxIn = s.rxIn := rfl
@[simp] theorem State.logRx_txIn (r : RxResponse) : (s.logRx r).txIn = s.txIn := rfl
@[simp] theorem State.logRx_sinkIn (r : RxResponse) : (s.logRx r).sinkIn = s.sinkIn := rfl
@[simp] theorem State.logRx_hostIn (r : RxResponse) : (s.logRx r).hostIn = s.hostIn := rfl
@[simp] theorem State.logRx_rxLog (r : RxResponse) : (s.logRx r).rxLog = s.rxLog ++ [.got r] := rfl
@[simp] theorem State.logRx_txLog (r : RxResponse) : (s.logRx r).txLog = s.txLog := rfl
@[simp] theorem State.logRx_sinkTrace (r : RxResponse) : (s.logRx r).sinkTrace = s.sinkTrace := rfl
@[simp] theorem State.logRx_rxMark (r : RxResponse) : (s.logRx r).rxMark = s.rxMark := rfl
@[simp] theorem State.logRx_txMark (r : RxResponse) : (s.logRx r).txMark = s.txMark := rfl
@[simp] theorem State.logRx_sinkMark (r : RxResponse) : (s.logRx r).sinkMark = s.sinkMark := rfl

@[simp] theorem State.logTx_params (b : Byte) (r : TxResponse) : (s.logTx b r).params = s.params := rfl
@[simp] theorem State.logTx_state (b : Byte) (r : TxResponse) : (s.logTx b r).state = s.state := rfl
@[simp] theorem State.logTx_ctrl (b : Byte) (r : TxResponse) : (s.logTx b r).ctrl = s.ctrl := rfl
@[simp] theorem State.logTx_expBlk (b : Byte) (r : TxResponse) : (s.logTx b r).expBlk = s.expBlk := rfl
@[simp] theorem State.logTx_retry (b : Byte) (r : TxResponse) : (s.logTx b r).retry = s.retry := rfl
@[simp] theorem State.logTx_hdrNum (b : Byte) (r : TxResponse) : (s.logTx b r).hdrNum = s.hdrNum := rfl
@[simp] theorem State.logTx_hdrCmp (b : Byte) (r : TxResponse) : (s.logTx b r).hdrCmp = s.hdrCmp := rfl
@[simp] theorem State.logTx_buf (b : Byte) (r : TxResponse) : (s.logTx b r).buf = s.buf := rfl
@[simp] theorem State.logTx_rxCk (b : Byte) (r : TxResponse) : (s.logTx b r).rxCk = s.rxCk := rfl
@[simp] theorem State.logTx_idx (b : Byte) (r : TxResponse) : (s.logTx b r).idx = s.idx := rfl
@[simp] theorem State.logTx_verdict (b : Byte) (r : TxResponse) : (s.logTx b r).verdict = s.verdict := rfl
@[simp] theorem State.logTx_fail (b : Byte) (r : TxResponse) : (s.logTx b r).fail = s.fail := rfl
@[simp] theorem State.logTx_event (b : Byte) (r : TxResponse) : (s.logTx b r).event = s.event := rfl
@[simp] theorem State.logTx_held (b : Byte) (r : TxResponse) : (s.logTx b r).held = s.held := rfl
@[simp] theorem State.logTx_outstanding (b : Byte) (r : TxResponse) : (s.logTx b r).outstanding = s.outstanding := rfl
@[simp] theorem State.logTx_rxIn (b : Byte) (r : TxResponse) : (s.logTx b r).rxIn = s.rxIn := rfl
@[simp] theorem State.logTx_txIn (b : Byte) (r : TxResponse) : (s.logTx b r).txIn = s.txIn := rfl
@[simp] theorem State.logTx_sinkIn (b : Byte) (r : TxResponse) : (s.logTx b r).sinkIn = s.sinkIn := rfl
@[simp] theorem State.logTx_hostIn (b : Byte) (r : TxResponse) : (s.logTx b r).hostIn = s.hostIn := rfl
@[simp] theorem State.logTx_rxLog (b : Byte) (r : TxResponse) : (s.logTx b r).rxLog = s.rxLog := rfl
@[simp] theorem State.logTx_txLog (b : Byte) (r : TxResponse) : (s.logTx b r).txLog = s.txLog ++ [(b, .got r)] := rfl
@[simp] theorem State.logTx_sinkTrace (b : Byte) (r : TxResponse) : (s.logTx b r).sinkTrace = s.sinkTrace := rfl
@[simp] theorem State.logTx_rxMark (b : Byte) (r : TxResponse) : (s.logTx b r).rxMark = s.rxMark := rfl
@[simp] theorem State.logTx_txMark (b : Byte) (r : TxResponse) : (s.logTx b r).txMark = s.txMark := rfl
@[simp] theorem State.logTx_sinkMark (b : Byte) (r : TxResponse) : (s.logTx b r).sinkMark = s.sinkMark := rfl

@[simp] theorem State.logSink_params (p : Block) (r : SinkResponse) : (s.logSink p r).params = s.params := rfl
@[simp] theorem State.logSink_state (p : Block) (r : SinkResponse) : (s.logSink p r).state = s.state := rfl
@[simp] theorem State.logSink_ctrl (p : Block) (r : SinkResponse) : (s.logSink p r).ctrl = s.ctrl := rfl
@[simp] theorem State.logSink_expBlk (p : Block) (r : SinkResponse) : (s.logSink p r).expBlk = s.expBlk := rfl
@[simp] theorem State.logSink_retry (p : Block) (r : SinkResponse) : (s.logSink p r).retry = s.retry := rfl
@[simp] theorem State.logSink_hdrNum (p : Block) (r : SinkResponse) : (s.logSink p r).hdrNum = s.hdrNum := rfl
@[simp] theorem State.logSink_hdrCmp (p : Block) (r : SinkResponse) : (s.logSink p r).hdrCmp = s.hdrCmp := rfl
@[simp] theorem State.logSink_buf (p : Block) (r : SinkResponse) : (s.logSink p r).buf = s.buf := rfl
@[simp] theorem State.logSink_rxCk (p : Block) (r : SinkResponse) : (s.logSink p r).rxCk = s.rxCk := rfl
@[simp] theorem State.logSink_idx (p : Block) (r : SinkResponse) : (s.logSink p r).idx = s.idx := rfl
@[simp] theorem State.logSink_verdict (p : Block) (r : SinkResponse) : (s.logSink p r).verdict = s.verdict := rfl
@[simp] theorem State.logSink_fail (p : Block) (r : SinkResponse) : (s.logSink p r).fail = s.fail := rfl
@[simp] theorem State.logSink_event (p : Block) (r : SinkResponse) : (s.logSink p r).event = s.event := rfl
@[simp] theorem State.logSink_held (p : Block) (r : SinkResponse) : (s.logSink p r).held = s.held := rfl
@[simp] theorem State.logSink_outstanding (p : Block) (r : SinkResponse) : (s.logSink p r).outstanding = s.outstanding := rfl
@[simp] theorem State.logSink_rxIn (p : Block) (r : SinkResponse) : (s.logSink p r).rxIn = s.rxIn := rfl
@[simp] theorem State.logSink_txIn (p : Block) (r : SinkResponse) : (s.logSink p r).txIn = s.txIn := rfl
@[simp] theorem State.logSink_sinkIn (p : Block) (r : SinkResponse) : (s.logSink p r).sinkIn = s.sinkIn := rfl
@[simp] theorem State.logSink_hostIn (p : Block) (r : SinkResponse) : (s.logSink p r).hostIn = s.hostIn := rfl
@[simp] theorem State.logSink_rxLog (p : Block) (r : SinkResponse) : (s.logSink p r).rxLog = s.rxLog := rfl
@[simp] theorem State.logSink_txLog (p : Block) (r : SinkResponse) : (s.logSink p r).txLog = s.txLog := rfl
@[simp] theorem State.logSink_sinkTrace (p : Block) (r : SinkResponse) : (s.logSink p r).sinkTrace = s.sinkTrace ++ [(p, .got r)] := rfl
@[simp] theorem State.logSink_rxMark (p : Block) (r : SinkResponse) : (s.logSink p r).rxMark = s.rxMark := rfl
@[simp] theorem State.logSink_txMark (p : Block) (r : SinkResponse) : (s.logSink p r).txMark = s.txMark := rfl
@[simp] theorem State.logSink_sinkMark (p : Block) (r : SinkResponse) : (s.logSink p r).sinkMark = s.sinkMark := rfl

@[simp] theorem State.writeCtrl_params (b : Byte) : (s.writeCtrl b).params = s.params := rfl
@[simp] theorem State.writeCtrl_state (b : Byte) : (s.writeCtrl b).state = s.state := rfl
@[simp] theorem State.writeCtrl_ctrl (b : Byte) : (s.writeCtrl b).ctrl = b := rfl
@[simp] theorem State.writeCtrl_expBlk (b : Byte) : (s.writeCtrl b).expBlk = s.expBlk := rfl
@[simp] theorem State.writeCtrl_retry (b : Byte) : (s.writeCtrl b).retry = s.retry := rfl
@[simp] theorem State.writeCtrl_hdrNum (b : Byte) : (s.writeCtrl b).hdrNum = s.hdrNum := rfl
@[simp] theorem State.writeCtrl_hdrCmp (b : Byte) : (s.writeCtrl b).hdrCmp = s.hdrCmp := rfl
@[simp] theorem State.writeCtrl_buf (b : Byte) : (s.writeCtrl b).buf = s.buf := rfl
@[simp] theorem State.writeCtrl_rxCk (b : Byte) : (s.writeCtrl b).rxCk = s.rxCk := rfl
@[simp] theorem State.writeCtrl_idx (b : Byte) : (s.writeCtrl b).idx = s.idx := rfl
@[simp] theorem State.writeCtrl_verdict (b : Byte) : (s.writeCtrl b).verdict = s.verdict := rfl
@[simp] theorem State.writeCtrl_fail (b : Byte) : (s.writeCtrl b).fail = s.fail := rfl
@[simp] theorem State.writeCtrl_event (b : Byte) : (s.writeCtrl b).event = s.event := rfl
@[simp] theorem State.writeCtrl_held (b : Byte) : (s.writeCtrl b).held = { s.held with ctrl := true } := rfl
@[simp] theorem State.writeCtrl_outstanding (b : Byte) : (s.writeCtrl b).outstanding = s.outstanding := rfl
@[simp] theorem State.writeCtrl_rxIn (b : Byte) : (s.writeCtrl b).rxIn = s.rxIn := rfl
@[simp] theorem State.writeCtrl_txIn (b : Byte) : (s.writeCtrl b).txIn = s.txIn := rfl
@[simp] theorem State.writeCtrl_sinkIn (b : Byte) : (s.writeCtrl b).sinkIn = s.sinkIn := rfl
@[simp] theorem State.writeCtrl_hostIn (b : Byte) : (s.writeCtrl b).hostIn = s.hostIn := rfl
@[simp] theorem State.writeCtrl_rxLog (b : Byte) : (s.writeCtrl b).rxLog = s.rxLog := rfl
@[simp] theorem State.writeCtrl_txLog (b : Byte) : (s.writeCtrl b).txLog = s.txLog := rfl
@[simp] theorem State.writeCtrl_sinkTrace (b : Byte) : (s.writeCtrl b).sinkTrace = s.sinkTrace := rfl
@[simp] theorem State.writeCtrl_rxMark (b : Byte) : (s.writeCtrl b).rxMark = s.rxMark := rfl
@[simp] theorem State.writeCtrl_txMark (b : Byte) : (s.writeCtrl b).txMark = s.txMark := rfl
@[simp] theorem State.writeCtrl_sinkMark (b : Byte) : (s.writeCtrl b).sinkMark = s.sinkMark := rfl

@[simp] theorem State.writeHdrNum_params (b : Byte) : (s.writeHdrNum b).params = s.params := rfl
@[simp] theorem State.writeHdrNum_state (b : Byte) : (s.writeHdrNum b).state = s.state := rfl
@[simp] theorem State.writeHdrNum_ctrl (b : Byte) : (s.writeHdrNum b).ctrl = s.ctrl := rfl
@[simp] theorem State.writeHdrNum_expBlk (b : Byte) : (s.writeHdrNum b).expBlk = s.expBlk := rfl
@[simp] theorem State.writeHdrNum_retry (b : Byte) : (s.writeHdrNum b).retry = s.retry := rfl
@[simp] theorem State.writeHdrNum_hdrNum (b : Byte) : (s.writeHdrNum b).hdrNum = b := rfl
@[simp] theorem State.writeHdrNum_hdrCmp (b : Byte) : (s.writeHdrNum b).hdrCmp = s.hdrCmp := rfl
@[simp] theorem State.writeHdrNum_buf (b : Byte) : (s.writeHdrNum b).buf = s.buf := rfl
@[simp] theorem State.writeHdrNum_rxCk (b : Byte) : (s.writeHdrNum b).rxCk = s.rxCk := rfl
@[simp] theorem State.writeHdrNum_idx (b : Byte) : (s.writeHdrNum b).idx = s.idx := rfl
@[simp] theorem State.writeHdrNum_verdict (b : Byte) : (s.writeHdrNum b).verdict = s.verdict := rfl
@[simp] theorem State.writeHdrNum_fail (b : Byte) : (s.writeHdrNum b).fail = s.fail := rfl
@[simp] theorem State.writeHdrNum_event (b : Byte) : (s.writeHdrNum b).event = s.event := rfl
@[simp] theorem State.writeHdrNum_held (b : Byte) : (s.writeHdrNum b).held = { s.held with hdrNum := true } := rfl
@[simp] theorem State.writeHdrNum_outstanding (b : Byte) : (s.writeHdrNum b).outstanding = s.outstanding := rfl
@[simp] theorem State.writeHdrNum_rxIn (b : Byte) : (s.writeHdrNum b).rxIn = s.rxIn := rfl
@[simp] theorem State.writeHdrNum_txIn (b : Byte) : (s.writeHdrNum b).txIn = s.txIn := rfl
@[simp] theorem State.writeHdrNum_sinkIn (b : Byte) : (s.writeHdrNum b).sinkIn = s.sinkIn := rfl
@[simp] theorem State.writeHdrNum_hostIn (b : Byte) : (s.writeHdrNum b).hostIn = s.hostIn := rfl
@[simp] theorem State.writeHdrNum_rxLog (b : Byte) : (s.writeHdrNum b).rxLog = s.rxLog := rfl
@[simp] theorem State.writeHdrNum_txLog (b : Byte) : (s.writeHdrNum b).txLog = s.txLog := rfl
@[simp] theorem State.writeHdrNum_sinkTrace (b : Byte) : (s.writeHdrNum b).sinkTrace = s.sinkTrace := rfl
@[simp] theorem State.writeHdrNum_rxMark (b : Byte) : (s.writeHdrNum b).rxMark = s.rxMark := rfl
@[simp] theorem State.writeHdrNum_txMark (b : Byte) : (s.writeHdrNum b).txMark = s.txMark := rfl
@[simp] theorem State.writeHdrNum_sinkMark (b : Byte) : (s.writeHdrNum b).sinkMark = s.sinkMark := rfl

@[simp] theorem State.writeHdrCmp_params (b : Byte) : (s.writeHdrCmp b).params = s.params := rfl
@[simp] theorem State.writeHdrCmp_state (b : Byte) : (s.writeHdrCmp b).state = s.state := rfl
@[simp] theorem State.writeHdrCmp_ctrl (b : Byte) : (s.writeHdrCmp b).ctrl = s.ctrl := rfl
@[simp] theorem State.writeHdrCmp_expBlk (b : Byte) : (s.writeHdrCmp b).expBlk = s.expBlk := rfl
@[simp] theorem State.writeHdrCmp_retry (b : Byte) : (s.writeHdrCmp b).retry = s.retry := rfl
@[simp] theorem State.writeHdrCmp_hdrNum (b : Byte) : (s.writeHdrCmp b).hdrNum = s.hdrNum := rfl
@[simp] theorem State.writeHdrCmp_hdrCmp (b : Byte) : (s.writeHdrCmp b).hdrCmp = b := rfl
@[simp] theorem State.writeHdrCmp_buf (b : Byte) : (s.writeHdrCmp b).buf = s.buf := rfl
@[simp] theorem State.writeHdrCmp_rxCk (b : Byte) : (s.writeHdrCmp b).rxCk = s.rxCk := rfl
@[simp] theorem State.writeHdrCmp_idx (b : Byte) : (s.writeHdrCmp b).idx = s.idx := rfl
@[simp] theorem State.writeHdrCmp_verdict (b : Byte) : (s.writeHdrCmp b).verdict = s.verdict := rfl
@[simp] theorem State.writeHdrCmp_fail (b : Byte) : (s.writeHdrCmp b).fail = s.fail := rfl
@[simp] theorem State.writeHdrCmp_event (b : Byte) : (s.writeHdrCmp b).event = s.event := rfl
@[simp] theorem State.writeHdrCmp_held (b : Byte) : (s.writeHdrCmp b).held = { s.held with hdrCmp := true } := rfl
@[simp] theorem State.writeHdrCmp_outstanding (b : Byte) : (s.writeHdrCmp b).outstanding = s.outstanding := rfl
@[simp] theorem State.writeHdrCmp_rxIn (b : Byte) : (s.writeHdrCmp b).rxIn = s.rxIn := rfl
@[simp] theorem State.writeHdrCmp_txIn (b : Byte) : (s.writeHdrCmp b).txIn = s.txIn := rfl
@[simp] theorem State.writeHdrCmp_sinkIn (b : Byte) : (s.writeHdrCmp b).sinkIn = s.sinkIn := rfl
@[simp] theorem State.writeHdrCmp_hostIn (b : Byte) : (s.writeHdrCmp b).hostIn = s.hostIn := rfl
@[simp] theorem State.writeHdrCmp_rxLog (b : Byte) : (s.writeHdrCmp b).rxLog = s.rxLog := rfl
@[simp] theorem State.writeHdrCmp_txLog (b : Byte) : (s.writeHdrCmp b).txLog = s.txLog := rfl
@[simp] theorem State.writeHdrCmp_sinkTrace (b : Byte) : (s.writeHdrCmp b).sinkTrace = s.sinkTrace := rfl
@[simp] theorem State.writeHdrCmp_rxMark (b : Byte) : (s.writeHdrCmp b).rxMark = s.rxMark := rfl
@[simp] theorem State.writeHdrCmp_txMark (b : Byte) : (s.writeHdrCmp b).txMark = s.txMark := rfl
@[simp] theorem State.writeHdrCmp_sinkMark (b : Byte) : (s.writeHdrCmp b).sinkMark = s.sinkMark := rfl

@[simp] theorem State.writeBuf_params (i : Nat) (b : Byte) : (s.writeBuf i b).params = s.params := rfl
@[simp] theorem State.writeBuf_state (i : Nat) (b : Byte) : (s.writeBuf i b).state = s.state := rfl
@[simp] theorem State.writeBuf_ctrl (i : Nat) (b : Byte) : (s.writeBuf i b).ctrl = s.ctrl := rfl
@[simp] theorem State.writeBuf_expBlk (i : Nat) (b : Byte) : (s.writeBuf i b).expBlk = s.expBlk := rfl
@[simp] theorem State.writeBuf_retry (i : Nat) (b : Byte) : (s.writeBuf i b).retry = s.retry := rfl
@[simp] theorem State.writeBuf_hdrNum (i : Nat) (b : Byte) : (s.writeBuf i b).hdrNum = s.hdrNum := rfl
@[simp] theorem State.writeBuf_hdrCmp (i : Nat) (b : Byte) : (s.writeBuf i b).hdrCmp = s.hdrCmp := rfl
@[simp] theorem State.writeBuf_buf (i : Nat) (b : Byte) : (s.writeBuf i b).buf = s.buf.setIfInBounds i b := rfl
@[simp] theorem State.writeBuf_rxCk (i : Nat) (b : Byte) : (s.writeBuf i b).rxCk = s.rxCk := rfl
@[simp] theorem State.writeBuf_idx (i : Nat) (b : Byte) : (s.writeBuf i b).idx = s.idx := rfl
@[simp] theorem State.writeBuf_verdict (i : Nat) (b : Byte) : (s.writeBuf i b).verdict = s.verdict := rfl
@[simp] theorem State.writeBuf_fail (i : Nat) (b : Byte) : (s.writeBuf i b).fail = s.fail := rfl
@[simp] theorem State.writeBuf_event (i : Nat) (b : Byte) : (s.writeBuf i b).event = s.event := rfl
@[simp] theorem State.writeBuf_held (i : Nat) (b : Byte) : (s.writeBuf i b).held = { s.held with buf := s.held.buf.setIfInBounds i true } := rfl
@[simp] theorem State.writeBuf_outstanding (i : Nat) (b : Byte) : (s.writeBuf i b).outstanding = s.outstanding := rfl
@[simp] theorem State.writeBuf_rxIn (i : Nat) (b : Byte) : (s.writeBuf i b).rxIn = s.rxIn := rfl
@[simp] theorem State.writeBuf_txIn (i : Nat) (b : Byte) : (s.writeBuf i b).txIn = s.txIn := rfl
@[simp] theorem State.writeBuf_sinkIn (i : Nat) (b : Byte) : (s.writeBuf i b).sinkIn = s.sinkIn := rfl
@[simp] theorem State.writeBuf_hostIn (i : Nat) (b : Byte) : (s.writeBuf i b).hostIn = s.hostIn := rfl
@[simp] theorem State.writeBuf_rxLog (i : Nat) (b : Byte) : (s.writeBuf i b).rxLog = s.rxLog := rfl
@[simp] theorem State.writeBuf_txLog (i : Nat) (b : Byte) : (s.writeBuf i b).txLog = s.txLog := rfl
@[simp] theorem State.writeBuf_sinkTrace (i : Nat) (b : Byte) : (s.writeBuf i b).sinkTrace = s.sinkTrace := rfl
@[simp] theorem State.writeBuf_rxMark (i : Nat) (b : Byte) : (s.writeBuf i b).rxMark = s.rxMark := rfl
@[simp] theorem State.writeBuf_txMark (i : Nat) (b : Byte) : (s.writeBuf i b).txMark = s.txMark := rfl
@[simp] theorem State.writeBuf_sinkMark (i : Nat) (b : Byte) : (s.writeBuf i b).sinkMark = s.sinkMark := rfl

@[simp] theorem State.writeRxCk_params (b : Byte) : (s.writeRxCk b).params = s.params := rfl
@[simp] theorem State.writeRxCk_state (b : Byte) : (s.writeRxCk b).state = s.state := rfl
@[simp] theorem State.writeRxCk_ctrl (b : Byte) : (s.writeRxCk b).ctrl = s.ctrl := rfl
@[simp] theorem State.writeRxCk_expBlk (b : Byte) : (s.writeRxCk b).expBlk = s.expBlk := rfl
@[simp] theorem State.writeRxCk_retry (b : Byte) : (s.writeRxCk b).retry = s.retry := rfl
@[simp] theorem State.writeRxCk_hdrNum (b : Byte) : (s.writeRxCk b).hdrNum = s.hdrNum := rfl
@[simp] theorem State.writeRxCk_hdrCmp (b : Byte) : (s.writeRxCk b).hdrCmp = s.hdrCmp := rfl
@[simp] theorem State.writeRxCk_buf (b : Byte) : (s.writeRxCk b).buf = s.buf := rfl
@[simp] theorem State.writeRxCk_rxCk (b : Byte) : (s.writeRxCk b).rxCk = b := rfl
@[simp] theorem State.writeRxCk_idx (b : Byte) : (s.writeRxCk b).idx = s.idx := rfl
@[simp] theorem State.writeRxCk_verdict (b : Byte) : (s.writeRxCk b).verdict = s.verdict := rfl
@[simp] theorem State.writeRxCk_fail (b : Byte) : (s.writeRxCk b).fail = s.fail := rfl
@[simp] theorem State.writeRxCk_event (b : Byte) : (s.writeRxCk b).event = s.event := rfl
@[simp] theorem State.writeRxCk_held (b : Byte) : (s.writeRxCk b).held = { s.held with rxCk := true } := rfl
@[simp] theorem State.writeRxCk_outstanding (b : Byte) : (s.writeRxCk b).outstanding = s.outstanding := rfl
@[simp] theorem State.writeRxCk_rxIn (b : Byte) : (s.writeRxCk b).rxIn = s.rxIn := rfl
@[simp] theorem State.writeRxCk_txIn (b : Byte) : (s.writeRxCk b).txIn = s.txIn := rfl
@[simp] theorem State.writeRxCk_sinkIn (b : Byte) : (s.writeRxCk b).sinkIn = s.sinkIn := rfl
@[simp] theorem State.writeRxCk_hostIn (b : Byte) : (s.writeRxCk b).hostIn = s.hostIn := rfl
@[simp] theorem State.writeRxCk_rxLog (b : Byte) : (s.writeRxCk b).rxLog = s.rxLog := rfl
@[simp] theorem State.writeRxCk_txLog (b : Byte) : (s.writeRxCk b).txLog = s.txLog := rfl
@[simp] theorem State.writeRxCk_sinkTrace (b : Byte) : (s.writeRxCk b).sinkTrace = s.sinkTrace := rfl
@[simp] theorem State.writeRxCk_rxMark (b : Byte) : (s.writeRxCk b).rxMark = s.rxMark := rfl
@[simp] theorem State.writeRxCk_txMark (b : Byte) : (s.writeRxCk b).txMark = s.txMark := rfl
@[simp] theorem State.writeRxCk_sinkMark (b : Byte) : (s.writeRxCk b).sinkMark = s.sinkMark := rfl

@[simp] theorem State.hostTaken_params : (s.hostTaken).params = s.params := rfl
@[simp] theorem State.hostTaken_state : (s.hostTaken).state = s.state := rfl
@[simp] theorem State.hostTaken_ctrl : (s.hostTaken).ctrl = s.ctrl := rfl
@[simp] theorem State.hostTaken_expBlk : (s.hostTaken).expBlk = s.expBlk := rfl
@[simp] theorem State.hostTaken_retry : (s.hostTaken).retry = s.retry := rfl
@[simp] theorem State.hostTaken_hdrNum : (s.hostTaken).hdrNum = s.hdrNum := rfl
@[simp] theorem State.hostTaken_hdrCmp : (s.hostTaken).hdrCmp = s.hdrCmp := rfl
@[simp] theorem State.hostTaken_buf : (s.hostTaken).buf = s.buf := rfl
@[simp] theorem State.hostTaken_rxCk : (s.hostTaken).rxCk = s.rxCk := rfl
@[simp] theorem State.hostTaken_idx : (s.hostTaken).idx = s.idx := rfl
@[simp] theorem State.hostTaken_verdict : (s.hostTaken).verdict = s.verdict := rfl
@[simp] theorem State.hostTaken_fail : (s.hostTaken).fail = s.fail := rfl
@[simp] theorem State.hostTaken_event : (s.hostTaken).event = s.event := rfl
@[simp] theorem State.hostTaken_held : (s.hostTaken).held = s.held := rfl
@[simp] theorem State.hostTaken_outstanding : (s.hostTaken).outstanding = s.outstanding := rfl
@[simp] theorem State.hostTaken_rxIn : (s.hostTaken).rxIn = s.rxIn := rfl
@[simp] theorem State.hostTaken_txIn : (s.hostTaken).txIn = s.txIn := rfl
@[simp] theorem State.hostTaken_sinkIn : (s.hostTaken).sinkIn = s.sinkIn := rfl
@[simp] theorem State.hostTaken_hostIn : (s.hostTaken).hostIn = s.hostIn.tail := rfl
@[simp] theorem State.hostTaken_rxLog : (s.hostTaken).rxLog = s.rxLog := rfl
@[simp] theorem State.hostTaken_txLog : (s.hostTaken).txLog = s.txLog := rfl
@[simp] theorem State.hostTaken_sinkTrace : (s.hostTaken).sinkTrace = s.sinkTrace := rfl
@[simp] theorem State.hostTaken_rxMark : (s.hostTaken).rxMark = s.rxMark := rfl
@[simp] theorem State.hostTaken_txMark : (s.hostTaken).txMark = s.txMark := rfl
@[simp] theorem State.hostTaken_sinkMark : (s.hostTaken).sinkMark = s.sinkMark := rfl

@[simp] theorem State.markSession_params : (s.markSession).params = s.params := rfl
@[simp] theorem State.markSession_state : (s.markSession).state = s.state := rfl
@[simp] theorem State.markSession_ctrl : (s.markSession).ctrl = s.ctrl := rfl
@[simp] theorem State.markSession_expBlk : (s.markSession).expBlk = s.expBlk := rfl
@[simp] theorem State.markSession_retry : (s.markSession).retry = s.retry := rfl
@[simp] theorem State.markSession_hdrNum : (s.markSession).hdrNum = s.hdrNum := rfl
@[simp] theorem State.markSession_hdrCmp : (s.markSession).hdrCmp = s.hdrCmp := rfl
@[simp] theorem State.markSession_buf : (s.markSession).buf = s.buf := rfl
@[simp] theorem State.markSession_rxCk : (s.markSession).rxCk = s.rxCk := rfl
@[simp] theorem State.markSession_idx : (s.markSession).idx = s.idx := rfl
@[simp] theorem State.markSession_verdict : (s.markSession).verdict = s.verdict := rfl
@[simp] theorem State.markSession_fail : (s.markSession).fail = s.fail := rfl
@[simp] theorem State.markSession_event : (s.markSession).event = s.event := rfl
@[simp] theorem State.markSession_held : (s.markSession).held = s.held := rfl
@[simp] theorem State.markSession_outstanding : (s.markSession).outstanding = s.outstanding := rfl
@[simp] theorem State.markSession_rxIn : (s.markSession).rxIn = s.rxIn := rfl
@[simp] theorem State.markSession_txIn : (s.markSession).txIn = s.txIn := rfl
@[simp] theorem State.markSession_sinkIn : (s.markSession).sinkIn = s.sinkIn := rfl
@[simp] theorem State.markSession_hostIn : (s.markSession).hostIn = s.hostIn := rfl
@[simp] theorem State.markSession_rxLog : (s.markSession).rxLog = s.rxLog := rfl
@[simp] theorem State.markSession_txLog : (s.markSession).txLog = s.txLog := rfl
@[simp] theorem State.markSession_sinkTrace : (s.markSession).sinkTrace = s.sinkTrace := rfl
@[simp] theorem State.markSession_rxMark : (s.markSession).rxMark = s.rxLog.length := rfl
@[simp] theorem State.markSession_txMark : (s.markSession).txMark = s.txLog.length := rfl
@[simp] theorem State.markSession_sinkMark : (s.markSession).sinkMark = s.sinkTrace.length := rfl

end Sys2Proof.Machine
end

