-- ==== Sys2Proof/Laws/Ops.lean ====
section
/-!
SUPPORT. For each shared operation, once, everything it can do.
-/
namespace Sys2Proof.Machine

section
variable {s t : State} {k : Result}

theorem inState_next {c : Ctl} (h : s.inState c k = .next t) : s.state = c ∧ k = .next t := by
  unfold State.inState State.offRow at h
  split at h
  · exact ⟨‹_›, h⟩
  · split at h <;> cases h

theorem inState_of_state {c : Ctl} (h : s.state = c) : s.inState c k = k := by
  simp [State.inState, h]

theorem inField_next {n : Nat} (h : s.inField n k = .next t) : s.idx.toNat < n ∧ k = .next t := by
  unfold State.inField at h
  split at h
  · exact ⟨‹_›, h⟩
  · cases h

theorem inField_of_lt {n : Nat} (h : s.idx.toNat < n) : s.inField n k = k := by
  simp [State.inField, h]

theorem dispatchOn_next {b : Byte} (h : s.dispatchOn b k = .next t) :
    s.state = .awaitCtrl ∧ s.readCtrl = some b ∧ k = .next t := by
  unfold State.dispatchOn at h
  obtain ⟨hs, hk⟩ := inState_next h
  split at hk
  · cases hk
  · rename_i c hc
    split at hk
    · rename_i hcb
      exact ⟨hs, hcb ▸ hc, hk⟩
    · split at hk <;> cases hk

theorem dispatchOn_of_ctrl {b : Byte} (hs : s.state = .awaitCtrl) (hc : s.readCtrl = some b) :
    s.dispatchOn b k = k := by
  simp [State.dispatchOn, State.inState, hs, hc]

/-- Whether the session goes on after a write depends on the parameters alone. -/
theorem txGoesOn_eq (r : TxResponse) (s : State) :
    s.txGoesOn r = (r == .ok || s.params.txFailPolicy == .ignore) := rfl

theorem txDone_cases (r : TxResponse) (c : Ctl) (s : State) :
    (s.txGoesOn r = true ∧ s.txDone r c = s.advance c) ∨
      (s.txGoesOn r = false ∧ s.txDone r c = s.raise .txWriteError) := by
  unfold State.txDone
  cases s.txGoesOn r <;> simp

/-- The end of a write does not look at `exp_blk` (rule R147). -/
theorem txDone_expBlk (r : TxResponse) (c : Ctl) (s : State) (e : Byte) :
    State.txDone r c { s with expBlk := e } = { s.txDone r c with expBlk := e } := by
  unfold State.txDone
  have : State.txGoesOn r { s with expBlk := e } = s.txGoesOn r := rfl
  rw [this]
  cases s.txGoesOn r <;> rfl

theorem txWrite_next {b : Byte} {after : TxResponse → State → State}
    (h : txWrite b after s = .next t) :
    (∃ f, s.txIn.pull = (none, f) ∧ t = { s with txIn := f }.waitFor (.txWrite b)) ∨
      (∃ r f, s.txIn.pull = (some r, f) ∧ t = after r ({ s with txIn := f }.logTx b r)) := by
  unfold txWrite at h
  split at h <;> cases h
  · exact .inl ⟨_, ‹_›, rfl⟩
  · exact .inr ⟨_, _, ‹_›, rfl⟩

theorem sinkWrite_next {p : Block} {after : SinkResponse → State → State}
    (h : sinkWrite p after s = .next t) :
    (∃ f, s.sinkIn.pull = (none, f) ∧ t = { s with sinkIn := f }.waitFor (.sinkWrite p)) ∨
      (∃ r f, s.sinkIn.pull = (some r, f) ∧ t = after r ({ s with sinkIn := f }.logSink p r)) := by
  unfold sinkWrite at h
  split at h <;> cases h
  · exact .inl ⟨_, ‹_›, rfl⟩
  · exact .inr ⟨_, _, ‹_›, rfl⟩

theorem readCtrl_eq_some {b : Byte} : s.readCtrl = some b ↔ s.held.ctrl = true ∧ s.ctrl = b := by
  simp [State.readCtrl]

theorem readHeader_eq_some {n c : Byte} :
    s.readHeader = some (n, c) ↔ s.held.hdrNum = true ∧ s.held.hdrCmp = true ∧ s.hdrNum = n ∧ s.hdrCmp = c := by
  simp [State.readHeader, and_assoc]

theorem readBuf_eq_some {p : Block} :
    s.readBuf = some p ↔ (∀ i : Fin blockSize, s.held.buf[i] = true) ∧ s.buf = p := by
  have : s.held.buf.toList.all id = true ↔ ∀ i : Fin blockSize, s.held.buf[i] = true := by
    simp only [List.all_eq_true, id_eq]
    constructor
    · intro h i
      exact h _ (by simp)
    · intro h x hx
      obtain ⟨i, hi, rfl⟩ := List.getElem_of_mem hx
      simpa using h ⟨i, by simpa using hi⟩
  unfold State.readBuf
  split
  · simp_all
  · simp_all

theorem readRxCk_eq_some {b : Byte} : s.readRxCk = some b ↔ s.held.rxCk = true ∧ s.rxCk = b := by
  simp [State.readRxCk]

end

@[simp] theorem pull_push {α : Type} (a : α) (f : Feed α) : (f.push a).pull = (some a, f) := rfl

@[simp] theorem pull_silent {α : Type} : (Feed.silent : Feed α).pull = (none, Feed.silent) := rfl

@[simp] theorem pull_always {α : Type} (a : α) : (Feed.always a).pull = (some a, Feed.always a) := rfl

/-- After its queue a feed begins its cycle again. -/
theorem pull_eq_of_cycle {α : Type} {f : Feed α} {x : Option α} {xs : List (Option α)} (hq : f.queue = [])
    (hc : f.cycle = x :: xs) : f.pull = (x, { f with queue := xs }) := by
  simp [Feed.pull, hq, hc]

/-- Past the written answers of a script's queue each answer is a success. -/
@[simp] theorem pull_thenAlways_nil {α : Type} (a : α) :
    (Feed.thenAlways a (some [])).pull = (some a, Feed.always a) := rfl

@[simp] theorem pull_thenAlways_cons {α : Type} (a b : α) (l : List α) :
    (Feed.thenAlways a (some (b :: l))).pull = (some b, Feed.thenAlways a (some l)) := rfl

theorem pull_eq_of_queue {α : Type} {f : Feed α} {x : Option α} {xs : List (Option α)} (h : f.queue = x :: xs) :
    f.pull = (x, { f with queue := xs }) := by
  simp [Feed.pull, h]

section
variable {α : Type} {effect : α → List Byte → List Byte → Prop}

@[simp] theorem mayBecome_nil {before after : List Byte} : MayBecome effect [] before after ↔ after = before := Iff.rfl

/-- One transaction more has its effect after all the others. -/
theorem mayBecome_append_singleton (l : List α) (e : α) (before after : List Byte) :
    MayBecome effect (l ++ [e]) before after ↔ ∃ mid : List Byte, MayBecome effect l before mid ∧ effect e mid after := by
  induction l generalizing before with
  | nil => simp [MayBecome]
  | cons x l ih =>
    simp only [List.cons_append, MayBecome, ih]
    exact ⟨fun ⟨m, h1, n, h2, h3⟩ => ⟨n, ⟨m, h1, h2⟩, h3⟩, fun ⟨n, ⟨m, h1, h2⟩, h3⟩ => ⟨m, h1, n, h2, h3⟩⟩

end

/-- A reset leaves every register of rule R45 at the value it has in the reset state. -/
theorem resetRegisters_eq (s : State) :
    s.resetRegisters = { State.reset with
      params := s.params, outstanding := s.outstanding, rxIn := s.rxIn, txIn := s.txIn, sinkIn := s.sinkIn
      hostIn := s.hostIn, rxLog := s.rxLog, txLog := s.txLog, sinkTrace := s.sinkTrace
      rxMark := s.rxMark, txMark := s.txMark, sinkMark := s.sinkMark } := rfl

theorem dropOutstanding_outstanding (s : State) : s.dropOutstanding.outstanding = none := by
  unfold State.dropOutstanding
  split <;> simp_all

@[simp] theorem dropOutstanding_params (s : State) : s.dropOutstanding.params = s.params := by
  unfold State.dropOutstanding; split <;> rfl

@[simp] theorem dropOutstanding_hostIn (s : State) : s.dropOutstanding.hostIn = s.hostIn := by
  unfold State.dropOutstanding; split <;> rfl

end Sys2Proof.Machine
end

