-- ==== Sys2Proof/Laws/PerInstr.lean ====
section
/-!
SUPPORT. What is said of every instruction as syntax, one lemma for each constructor.
-/
namespace Sys2Proof.Laws.EncodedLength

/-- An instruction's symbol is as long as its format says (`30_encoding.md` rule R80). -/
def Statement (i : Instr) : Prop := (encode i).length = i.format.length

theorem hsSoh : Statement .hsSoh := rfl
theorem hsEot : Statement .hsEot := rfl
theorem hsStray (b : Byte) : Statement (.hsStray b) := rfl
theorem hsTimeout : Statement .hsTimeout := rfl
theorem acEot : Statement .acEot := rfl
theorem acSoh : Statement .acSoh := rfl
theorem acOther (b : Byte) : Statement (.acOther b) := rfl
theorem frHdr (b : Byte) : Statement (.frHdr b) := rfl
theorem frHdrTimeout : Statement .frHdrTimeout := rfl
theorem frData (b : Byte) : Statement (.frData b) := rfl
theorem frDataTimeout : Statement .frDataTimeout := rfl
theorem frCksum (b : Byte) : Statement (.frCksum b) := rfl
theorem frCksumTimeout : Statement .frCksumTimeout := rfl
theorem ncSoh : Statement .ncSoh := rfl
theorem ncEot : Statement .ncEot := rfl
theorem ncStray (b : Byte) : Statement (.ncStray b) := rfl
theorem ncTimeout : Statement .ncTimeout := rfl
theorem txAck : Statement .txAck := rfl
theorem txNak : Statement .txNak := rfl
theorem skWrite (p : Block) : Statement (.skWrite p) := Vector.length_toList

end Sys2Proof.Laws.EncodedLength
end

