-- ==== Sys2Proof/Laws/Step.lean ====
section
/-!
SUPPORT. What one step can do, once: `step_next_cases` names every way a step can answer a next state, with its guards,
and every claim about steps goes by cases on it.
-/
namespace Sys2Proof.Machine

/-- The failure a read that times out raises in a state of the frame receiver or the inter-block wait. -/
def State.ReadFailure (s : State) (r : FailReason) : Prop :=
  (s.state = .rxHeader ∧ s.idx.toNat < 2 ∧ r = .headerReadError) ∨
    (s.state = .rxPayload ∧ s.idx.toNat < blockSize ∧ r = .dataReadError) ∨
    (s.state = .rxChecksum ∧ r = .checksumReadError) ∨ (s.state = .nextCtrl ∧ r = .nextBlockTimeout)

/-- Every way a step, once the host's sample is taken, can reach a next state. -/
inductive Works (h : State) : State → Prop
  | rests (hs : h.state = .idle ∨ h.state = .complete ∨ h.state = .failed) : Works h (h.advance h.state)
  | awaitsRead {f : Feed RxResponse} (hr : h.request = some .rxRead) (hp : h.rxIn.pull = (none, f)) :
      Works h ({ h with rxIn := f }.waitFor .rxRead)
  | awaitsWrite {b : Byte} {f : Feed TxResponse} (hr : h.request = some (.txWrite b))
      (hc : h.state = .awaitCtrl → h.readCtrl = some eot) (hp : h.txIn.pull = (none, f)) : Works h ({ h with txIn := f }.waitFor (.txWrite b))
  | awaitsSink {f : Feed SinkResponse} (hs : h.state = .accWrite) (hb : h.readBuf = some h.buf)
      (hp : h.sinkIn.pull = (none, f)) : Works h ({ h with sinkIn := f }.waitFor (.sinkWrite h.buf))
  | takesControl {b : Byte} {f : Feed RxResponse} (hs : h.state = .hsRead ∨ h.state = .nextCtrl)
      (hb : isControlByte b = true) (hp : h.rxIn.pull = (some (.byte b), f)) :
      Works h ({ h with rxIn := f }.acceptCtrl b)
  | strayProbe {b : Byte} {f : Feed RxResponse} (hs : h.state = .hsRead) (hb : isControlByte b = false)
      (hp : h.rxIn.pull = (some (.byte b), f)) :
      Works h (({ h with rxIn := f }.logRx (.byte b)).advance .hsNak)
  | probeTimeout {f : Feed RxResponse} (hs : h.state = .hsRead) (hp : h.rxIn.pull = (some .timeout, f))
      (hc : h.retry.toNat + 1 ≤ h.params.retryCeiling.val) :
      Works h ({ { h with rxIn := f }.logRx .timeout with retry := BitVec.ofNat 8 (h.retry.toNat + 1) }.advance .hsNak)
  | probeCeiling {f : Feed RxResponse} (hs : h.state = .hsRead) (hp : h.rxIn.pull = (some .timeout, f))
      (hc : h.params.retryCeiling.val < h.retry.toNat + 1) :
      Works h ({ { h with rxIn := f }.logRx .timeout with
        retry := BitVec.ofNat 8 (h.retry.toNat + 1) }.raise .handshakeTimeout)
  | startsFrame (hs : h.state = .awaitCtrl) (hc : h.readCtrl = some soh) :
      Works h ({ h with idx := 0 }.advance .rxHeader)
  | endsTransfer {r : TxResponse} {f : Feed TxResponse} (hs : h.state = .awaitCtrl) (hc : h.readCtrl = some eot)
      (hp : h.txIn.pull = (some r, f)) : Works h (({ h with txIn := f }.logTx ack r).txDone r .complete)
  | readsNumber {b : Byte} {f : Feed RxResponse} (hs : h.state = .rxHeader) (hi : h.idx = 0)
      (hp : h.rxIn.pull = (some (.byte b), f)) :
      Works h ({ ({ h with rxIn := f }.logRx (.byte b)).writeHdrNum b with idx := 1 }.advance .rxHeader)
  | readsComplement {b : Byte} {f : Feed RxResponse} (hs : h.state = .rxHeader) (hi : h.idx = 1)
      (hp : h.rxIn.pull = (some (.byte b), f)) :
      Works h ({ ({ h with rxIn := f }.logRx (.byte b)).writeHdrCmp b with idx := 0 }.advance .rxPayload)
  | readsData {b : Byte} {f : Feed RxResponse} (hs : h.state = .rxPayload) (hi : h.idx.toNat < 127)
      (hp : h.rxIn.pull = (some (.byte b), f)) :
      Works h ({ ({ h with rxIn := f }.logRx (.byte b)).writeBuf h.idx.toNat b with
        idx := h.idx + 1 }.advance .rxPayload)
  | readsLastData {b : Byte} {f : Feed RxResponse} (hs : h.state = .rxPayload) (hi : h.idx = 127)
      (hp : h.rxIn.pull = (some (.byte b), f)) :
      Works h ({ ({ h with rxIn := f }.logRx (.byte b)).writeBuf 127 b with idx := 0 }.advance .rxChecksum)
  | readsChecksum {b : Byte} {f : Feed RxResponse} (hs : h.state = .rxChecksum)
      (hp : h.rxIn.pull = (some (.byte b), f)) :
      Works h ((({ h with rxIn := f }.logRx (.byte b)).writeRxCk b).advance .validating)
  | readFails {r : FailReason} {f : Feed RxResponse} (hr : h.ReadFailure r)
      (hp : h.rxIn.pull = (some .timeout, f)) : Works h ({ h with rxIn := f }.failRead r)
  | rejectsHeader {n c : Byte} (hs : h.state = .validating) (hh : h.readHeader = some (n, c))
      (hc : hdrOk n c = false) : Works h (h.reject .blockNumberMismatch .blockNumberMismatch)
  | rejectsChecksum {n c k : Byte} {p : Block} (hs : h.state = .validating) (hh : h.readHeader = some (n, c))
      (hc : hdrOk n c = true) (hb : h.readBuf = some p) (hk : h.readRxCk = some k) (hck : ckOk p k = false) :
      Works h (h.reject .checksumError .checksumError)
  | accepts {n c k : Byte} {p : Block} (hs : h.state = .validating) (hh : h.readHeader = some (n, c))
      (hc : hdrOk n c = true) (hb : h.readBuf = some p) (hk : h.readRxCk = some k) (hck : ckOk p k = true) :
      Works h ({ h with verdict := .accept }.advance .accWrite)
  | stores {f : Feed SinkResponse} (hs : h.state = .accWrite) (hb : h.readBuf = some h.buf)
      (hp : h.sinkIn.pull = (some .ok, f)) : Works h (({ h with sinkIn := f }.logSink h.buf .ok).advance .accAck)
  | storeFails {f : Feed SinkResponse} (hs : h.state = .accWrite) (hb : h.readBuf = some h.buf)
      (hp : h.sinkIn.pull = (some .fail, f)) :
      Works h (({ h with sinkIn := f }.logSink h.buf .fail).raise .sinkWriteError)
  | acksBlock {r : TxResponse} {f : Feed TxResponse} (hs : h.state = .accAck) (hp : h.txIn.pull = (some r, f))
      (hg : h.txGoesOn r = true) :
      Works h ({ { h with txIn := f }.logTx ack r with expBlk := h.expBlk + 1 }.advance .nextCtrl)
  | ackFails {r : TxResponse} {f : Feed TxResponse} (hs : h.state = .accAck) (hp : h.txIn.pull = (some r, f))
      (hg : h.txGoesOn r = false) : Works h (({ h with txIn := f }.logTx ack r).raise .txWriteError)
  | probes {r : TxResponse} {f : Feed TxResponse} (hs : h.state = .hsNak) (hp : h.txIn.pull = (some r, f)) :
      Works h (({ h with txIn := f }.logTx nak r).txDone r .hsRead)
  | naksBlock {r : TxResponse} {f : Feed TxResponse} (hs : h.state = .rejNak) (hp : h.txIn.pull = (some r, f)) :
      Works h (({ h with txIn := f }.logTx nak r).txDone r .nextCtrl)
  | strayBetween {b : Byte} {f : Feed RxResponse} (hs : h.state = .nextCtrl) (hb : isControlByte b = false)
      (hp : h.rxIn.pull = (some (.byte b), f)) :
      Works h (({ h with rxIn := f }.logRx (.byte b)).advance .nextCtrl)

section
variable {s t h : State}

/-- What a `Fetched` comes to. -/
def Fetched.outcome : Fetched → Result
  | .settled r => r
  | .symbol c w t => runSymbol c w t

theorem step_eq_fetch_outcome (s : State) : step s = (fetch s).outcome := by
  unfold step Fetched.outcome
  cases fetch s <;> rfl

theorem runSymbol_ok {c : Context} {w : List Byte} {i : Instr} (hd : decode c w = .ok i) (s : State) :
    runSymbol c w s = exec i s := by
  simp [runSymbol, hd]

theorem fetchRx_outcome {c : Context} (hw : (fetchRx c h).outcome = .next t) :
    (∃ f, h.rxIn.pull = (none, f) ∧ t = { h with rxIn := f }.waitFor .rxRead) ∨
      (∃ r f, h.rxIn.pull = (some r, f) ∧ runSymbol c r.word { h with rxIn := f } = .next t) := by
  unfold fetchRx at hw
  split at hw
  · cases hw; exact .inl ⟨_, ‹_›, rfl⟩
  · exact .inr ⟨_, _, ‹_›, hw⟩

theorem works_hsRead (hs : h.state = .hsRead) (hw : (fetchRx .hs h).outcome = .next t) : Works h t := by
  obtain ⟨f, hp, rfl⟩ | ⟨r, f, hp, hw⟩ := fetchRx_outcome hw
  · exact .awaitsRead (by simp [State.request, hs]) hp
  · cases r with
    | timeout =>
      replace hw : execHsTimeout { h with rxIn := f } = .next t := hw
      obtain ⟨-, hw⟩ := inState_next hw
      cases hw
      by_cases hc : h.params.retryCeiling.val < h.retry.toNat + 1
      · simpa [hc] using Works.probeCeiling hs hp hc
      · simpa [hc] using Works.probeTimeout hs hp (Nat.le_of_not_lt hc)
    | byte b =>
      rcases decodeCtrl_cases b with ⟨rfl, hd⟩ | ⟨rfl, hd⟩ | ⟨hb, hd⟩
      · replace hw : execHsSoh { h with rxIn := f } = .next t := hw
        obtain ⟨-, hw⟩ := inState_next hw
        cases hw
        exact .takesControl (.inl hs) (by decide) hp
      · replace hw : execHsEot { h with rxIn := f } = .next t := hw
        obtain ⟨-, hw⟩ := inState_next hw
        cases hw
        exact .takesControl (.inl hs) (by decide) hp
      · rw [runSymbol_ok (i := .hsStray b) (by simp [decode, decodeHs, RxResponse.word, hd])] at hw
        simp only [exec, execHsStray, hb, Bool.false_eq_true, if_false] at hw
        obtain ⟨-, hw⟩ := inState_next hw
        cases hw
        exact .strayProbe hs hb hp

theorem works_nextCtrl (hs : h.state = .nextCtrl) (hw : (fetchRx .nc h).outcome = .next t) : Works h t := by
  obtain ⟨f, hp, rfl⟩ | ⟨r, f, hp, hw⟩ := fetchRx_outcome hw
  · exact .awaitsRead (by simp [State.request, hs]) hp
  · cases r with
    | timeout =>
      replace hw : execNcTimeout { h with rxIn := f } = .next t := hw
      obtain ⟨-, hw⟩ := inState_next hw
      cases hw
      exact .readFails (.inr (.inr (.inr ⟨hs, rfl⟩))) hp
    | byte b =>
      rcases decodeCtrl_cases b with ⟨rfl, hd⟩ | ⟨rfl, hd⟩ | ⟨hb, hd⟩
      · replace hw : execNcSoh { h with rxIn := f } = .next t := hw
        obtain ⟨-, hw⟩ := inState_next hw
        cases hw
        exact .takesControl (.inr hs) (by decide) hp
      · replace hw : execNcEot { h with rxIn := f } = .next t := hw
        obtain ⟨-, hw⟩ := inState_next hw
        cases hw
        exact .takesControl (.inr hs) (by decide) hp
      · rw [runSymbol_ok (i := .ncStray b) (by simp [decode, decodeNc, RxResponse.word, hd])] at hw
        simp only [exec, execNcStray, hb, Bool.false_eq_true, if_false] at hw
        obtain ⟨-, hw⟩ := inState_next hw
        cases hw
        exact .strayBetween hs hb hp

theorem works_rxHeader (hs : h.state = .rxHeader) (hw : (fetchRx .frHdr h).outcome = .next t) : Works h t := by
  obtain ⟨f, hp, rfl⟩ | ⟨r, f, hp, hw⟩ := fetchRx_outcome hw
  · exact .awaitsRead (by simp [State.request, hs]) hp
  · cases r with
    | timeout =>
      replace hw : execFrHdrTimeout { h with rxIn := f } = .next t := hw
      obtain ⟨-, hw⟩ := inState_next hw
      obtain ⟨hi, hw⟩ := inField_next hw
      cases hw
      exact .readFails (.inl ⟨hs, hi, rfl⟩) hp
    | byte b =>
      replace hw : execFrHdr b { h with rxIn := f } = .next t := hw
      obtain ⟨-, hw⟩ := inState_next hw
      obtain ⟨hi, hw⟩ := inField_next hw
      cases hw
      by_cases h0 : h.idx = 0
      · simpa [h0] using Works.readsNumber hs h0 hp
      · have h1 : h.idx = 1 := by
          apply BitVec.eq_of_toNat_eq
          have : h.idx.toNat ≠ 0 := fun hc => h0 (BitVec.eq_of_toNat_eq (by simpa using hc))
          simp only at hi
          simp
          omega
        simp only [if_neg h0]
        exact Works.readsComplement hs h1 hp

theorem works_rxPayload (hs : h.state = .rxPayload) (hw : (fetchRx .frData h).outcome = .next t) : Works h t := by
  obtain ⟨f, hp, rfl⟩ | ⟨r, f, hp, hw⟩ := fetchRx_outcome hw
  · exact .awaitsRead (by simp [State.request, hs]) hp
  · cases r with
    | timeout =>
      replace hw : execFrDataTimeout { h with rxIn := f } = .next t := hw
      obtain ⟨-, hw⟩ := inState_next hw
      obtain ⟨hi, hw⟩ := inField_next hw
      cases hw
      exact .readFails (.inr (.inl ⟨hs, hi, rfl⟩)) hp
    | byte b =>
      replace hw : execFrData b { h with rxIn := f } = .next t := hw
      obtain ⟨-, hw⟩ := inState_next hw
      obtain ⟨hi, hw⟩ := inField_next hw
      cases hw
      by_cases hl : h.idx = 127
      · have : h.idx.toNat = 127 := by simp [hl]
        simpa [hl, this] using Works.readsLastData hs hl hp
      · have : h.idx.toNat < 127 := by
          have : h.idx.toNat ≠ 127 := fun hc => hl (BitVec.eq_of_toNat_eq (by simpa using hc))
          simp only [blockSize] at hi
          omega
        simp only [if_neg hl]
        exact Works.readsData hs this hp

theorem works_rxChecksum (hs : h.state = .rxChecksum) (hw : (fetchRx .frCksum h).outcome = .next t) :
    Works h t := by
  obtain ⟨f, hp, rfl⟩ | ⟨r, f, hp, hw⟩ := fetchRx_outcome hw
  · exact .awaitsRead (by simp [State.request, hs]) hp
  · cases r with
    | timeout =>
      replace hw : execFrCksumTimeout { h with rxIn := f } = .next t := hw
      obtain ⟨-, hw⟩ := inState_next hw
      cases hw
      exact .readFails (.inr (.inr (.inl ⟨hs, rfl⟩))) hp
    | byte b =>
      replace hw : execFrCksum b { h with rxIn := f } = .next t := hw
      obtain ⟨-, hw⟩ := inState_next hw
      cases hw
      exact .readsChecksum hs hp

theorem works_awaitCtrl {b : Byte} (hs : h.state = .awaitCtrl) (hc : h.readCtrl = some b)
    (hw : runSymbol .ac [b] h = .next t) : Works h t := by
  rcases decodeCtrl_cases b with ⟨rfl, hd⟩ | ⟨rfl, hd⟩ | ⟨hb, hd⟩
  · replace hw : execAcSoh h = .next t := hw
    obtain ⟨-, -, hw⟩ := dispatchOn_next hw
    cases hw
    exact .startsFrame hs hc
  · replace hw : execAcEot h = .next t := hw
    obtain ⟨-, -, hw⟩ := dispatchOn_next hw
    obtain ⟨f, hp, rfl⟩ | ⟨r, f, hp, rfl⟩ := txWrite_next hw
    · exact .awaitsWrite (by simp [State.request, hs, (readCtrl_eq_some.1 hc).2]) (fun _ => hc) hp
    · exact .endsTransfer hs hc hp
  · rw [runSymbol_ok (i := .acOther b) (by simp [decode, decodeAc, hd])] at hw
    cases hw

theorem works_validating (hs : h.state = .validating) (hw : validate h = .next t) : Works h t := by
  unfold validate at hw
  split at hw
  · cases hw
  · split at hw
    · cases hw
      exact .rejectsHeader hs ‹_› (by simpa using ‹(!_) = true›)
    · split at hw
      · split at hw
        · cases hw
          exact .rejectsChecksum hs ‹_› (by simp_all) ‹_› ‹_› (by simp_all)
        · cases hw
          exact .accepts hs ‹_› (by simp_all) ‹_› ‹_› (by simp_all)
      · cases hw

theorem works_accWrite {p : Block} (hs : h.state = .accWrite) (hb : h.readBuf = some p)
    (hw : runSymbol .sk p.toList h = .next t) : Works h t := by
  rw [runSymbol_ok (decode_sk_block p)] at hw
  obtain ⟨-, hw⟩ := inState_next hw
  obtain rfl : h.buf = p := (readBuf_eq_some.1 hb).2
  simp only [hb, if_true] at hw
  obtain ⟨f, hp, rfl⟩ | ⟨r, f, hp, rfl⟩ := sinkWrite_next hw
  · exact .awaitsSink hs hb hp
  · cases r
    · exact .stores hs hb hp
    · exact .storeFails hs hb hp

theorem works_accAck (hs : h.state = .accAck) (hw : runSymbol .tx [ack] h = .next t) : Works h t := by
  replace hw : execTxAck h = .next t := hw
  simp only [execTxAck, hs, ackBlock] at hw
  obtain ⟨f, hp, rfl⟩ | ⟨r, f, hp, rfl⟩ := txWrite_next hw
  · exact .awaitsWrite (by simp [State.request, hs]) (by simp [hs]) hp
  · split
    · exact .acksBlock hs hp ‹_›
    · rename_i hg
      exact .ackFails hs hp (Bool.eq_false_iff.2 hg)

theorem works_nak (hs : h.state = .hsNak ∨ h.state = .rejNak) (hw : runSymbol .tx [nak] h = .next t) :
    Works h t := by
  replace hw : execTxNak h = .next t := hw
  rcases hs with hs | hs <;> simp only [execTxNak, hs] at hw <;>
    obtain ⟨f, hp, rfl⟩ | ⟨r, f, hp, rfl⟩ := txWrite_next hw
  · exact .awaitsWrite (by simp [State.request, hs]) (by simp [hs]) hp
  · exact .probes hs hp
  · exact .awaitsWrite (by simp [State.request, hs]) (by simp [hs]) hp
  · exact .naksBlock hs hp

theorem works_of_fetchByState (hw : h.fetchByState.outcome = .next t) : Works h t := by
  cases hs : h.state <;> simp only [State.fetchByState, hs] at hw
  case idle => cases hw; simpa [hs] using Works.rests (.inl hs)
  case complete => cases hw; simpa [hs] using Works.rests (.inr (.inl hs))
  case failed => cases hw; simpa [hs] using Works.rests (.inr (.inr hs))
  case hsNak => exact works_nak (.inl hs) hw
  case rejNak => exact works_nak (.inr hs) hw
  case hsRead => exact works_hsRead hs hw
  case nextCtrl => exact works_nextCtrl hs hw
  case rxHeader => exact works_rxHeader hs hw
  case rxPayload => exact works_rxPayload hs hw
  case rxChecksum => exact works_rxChecksum hs hw
  case validating => exact works_validating hs hw
  case accAck => exact works_accAck hs hw
  case awaitCtrl =>
    split at hw
    · cases hw
    · exact works_awaitCtrl hs ‹_› hw
  case accWrite =>
    split at hw
    · cases hw
    · exact works_accWrite hs ‹_› hw
  case reserved14 => cases hw
  case reserved15 => cases hw

/-- Everything a step that answers a next state can have done. -/
theorem step_next_cases (h : step s = .next t) :
    (s.hostSample.reset = true ∧ t = s.hostTaken.hardReset) ∨
      (s.hostSample.reset = false ∧ s.hostSample.start = true ∧ s.state.takesStart = true ∧
        t = s.hostTaken.startSession) ∨
      (s.proceeds ∧ Works s.hostTaken t) := by
  rw [step_eq_fetch_outcome] at h
  unfold fetch at h
  split at h
  · cases h; exact .inl ⟨‹_›, rfl⟩
  · split at h
    · cases h
      simp_all
    · refine .inr (.inr ⟨⟨by simp_all, ?_⟩, works_of_fetchByState h⟩)
      cases hst : s.hostSample.start <;> simp_all

/-- With the CTRL port leaving the step to the controller state, a step is what that state fetches. -/
theorem step_of_proceeds (h : s.proceeds) : step s = s.hostTaken.fetchByState.outcome := by
  rw [step_eq_fetch_outcome]
  unfold fetch
  rw [if_neg (by simp [h.1]), if_neg (by simp [h.2])]

theorem proceeds_of_quiet (h : s.hostIn = []) : s.proceeds ∧ s.hostTaken = s := by
  refine ⟨⟨?_, ?_⟩, ?_⟩
  · simp [State.hostSample, h, HostSample.quiet]
  · simp [State.hostSample, h, HostSample.quiet]
  · cases s; simp_all [State.hostTaken]

end

end Sys2Proof.Machine
end

