-- ==== Sys2Proof/Laws/Works.lean ====
section
/-!
SUPPORT. The converse of `step_next_cases`: each way of `Works` is the step that is taken.
-/
namespace Sys2Proof.Machine

section
variable {s t h : State}

theorem runSymbol_control {b : Byte} (hb : isControlByte b = true) :
    (h.state = .hsRead → runSymbol .hs [b] h = .next (h.acceptCtrl b)) ∧
      (h.state = .nextCtrl → runSymbol .nc [b] h = .next (h.acceptCtrl b)) := by
  rcases (isControlByte_iff b).1 hb with rfl | rfl
  · exact ⟨inState_of_state (k := .next (h.acceptCtrl soh)), inState_of_state (k := .next (h.acceptCtrl soh))⟩
  · exact ⟨inState_of_state (k := .next (h.acceptCtrl eot)), inState_of_state (k := .next (h.acceptCtrl eot))⟩

/-- What a step can do, it does: the guards of `Works` decide the step. -/
theorem fetchByState_of_works (hw : Works h t) : h.fetchByState.outcome = .next t := by
  cases hw
  case rests hs => rcases hs with hs | hs | hs <;> simp [State.fetchByState, hs, Fetched.outcome]
  case awaitsRead f hr hp =>
    cases hs : h.state <;> simp [State.request, hs] at hr <;>
      simp [State.fetchByState, hs, fetchRx, hp, Fetched.outcome]
  case awaitsWrite b f hr hc hp =>
    cases hs : h.state <;> simp [State.request, hs] at hr
    case awaitCtrl =>
      obtain ⟨-, rfl⟩ := hr
      have hc := hc hs
      simp [State.fetchByState, hs, hc, Fetched.outcome, runSymbol, decode, decodeAc, exec, execAcEot, ackEot,
        dispatchOn_of_ctrl hs hc, txWrite, hp]
    all_goals
      subst hr
      simp [State.fetchByState, hs, Fetched.outcome, runSymbol, exec, execTxAck, execTxNak, ackBlock, txWrite, hp]
  case awaitsSink f hs hb hp =>
    simp [State.fetchByState, hs, hb, Fetched.outcome, runSymbol, exec, execSkWrite, State.inState, sinkWrite, hp]
  case takesControl b f hs hb hp =>
    have := runSymbol_control (h := { h with rxIn := f }) hb
    rcases hs with hs | hs
    · simpa [State.fetchByState, hs, fetchRx, hp, Fetched.outcome, RxResponse.word] using this.1 hs
    · simpa [State.fetchByState, hs, fetchRx, hp, Fetched.outcome, RxResponse.word] using this.2 hs
  case strayProbe b f hs hb hp =>
    simp [State.fetchByState, hs, fetchRx, hp, Fetched.outcome, RxResponse.word, runSymbol, decode, decodeHs,
      decodeCtrl_of_stray hb, exec, execHsStray, hb, State.inState]
  case probeTimeout f hs hp hc => 
    simp [State.fetchByState, hs, fetchRx, hp, Fetched.outcome, RxResponse.word, runSymbol, decode, decodeHs,
      exec, execHsTimeout, State.inState, Nat.not_lt.2 hc]
  case probeCeiling f hs hp hc => 
    simp [State.fetchByState, hs, fetchRx, hp, Fetched.outcome, RxResponse.word, runSymbol, decode, decodeHs,
      exec, execHsTimeout, State.inState, hc]
  case startsFrame hs hc =>
    simp [State.fetchByState, hs, hc, Fetched.outcome, runSymbol, decode, decodeAc, exec, execAcSoh,
      dispatchOn_of_ctrl hs hc]
  case endsTransfer r f hs hc hp =>
    simp [State.fetchByState, hs, hc, Fetched.outcome, runSymbol, decode, decodeAc, exec, execAcEot, ackEot,
      dispatchOn_of_ctrl hs hc, txWrite, hp]
  case readsNumber b f hs hi hp =>
    simp [State.fetchByState, hs, fetchRx, hp, Fetched.outcome, RxResponse.word, runSymbol, decode,
      decodeFrame, exec, execFrHdr, State.inState, State.inField, hi]
  case readsComplement b f hs hi hp =>
    simp [State.fetchByState, hs, fetchRx, hp, Fetched.outcome, RxResponse.word, runSymbol, decode,
      decodeFrame, exec, execFrHdr, State.inState, State.inField, hi]
  case readsData b f hs hi hp =>
    have hl : h.idx ≠ 127#8 := by rintro hc; simp [hc] at hi
    have hf : h.idx.toNat < 128 := by omega
    simp [State.fetchByState, hs, fetchRx, hp, Fetched.outcome, RxResponse.word, runSymbol, decode,
      decodeFrame, exec, execFrData, State.inState, State.inField, hl, hf]
  case readsLastData b f hs hi hp =>
    simp [State.fetchByState, hs, fetchRx, hp, Fetched.outcome, RxResponse.word, runSymbol, decode,
      decodeFrame, exec, execFrData, State.inState, State.inField, hi]
  case readsChecksum b f hs hp =>
    simp [State.fetchByState, hs, fetchRx, hp, Fetched.outcome, RxResponse.word, runSymbol, decode,
      decodeFrame, exec, execFrCksum, State.inState]
  case readFails r f hr hp =>
    rcases hr with ⟨hs, hi, rfl⟩ | ⟨hs, hi, rfl⟩ | ⟨hs, rfl⟩ | ⟨hs, rfl⟩
    · simp [State.fetchByState, hs, fetchRx, hp, Fetched.outcome, RxResponse.word, runSymbol, decode, decodeFrame, exec, execFrHdrTimeout, State.inState, State.inField, hi]
    · simp [State.fetchByState, hs, fetchRx, hp, Fetched.outcome, RxResponse.word, runSymbol, decode, decodeFrame, exec, execFrDataTimeout, State.inState, State.inField, hi]
    · simp [State.fetchByState, hs, fetchRx, hp, Fetched.outcome, RxResponse.word, runSymbol, decode, decodeFrame, exec, execFrCksumTimeout, State.inState]
    · simp [State.fetchByState, hs, fetchRx, hp, Fetched.outcome, RxResponse.word, runSymbol, decode, decodeNc, exec, execNcTimeout, State.inState]
  case rejectsHeader n c hs hh hc =>
    simp [State.fetchByState, hs, Fetched.outcome, validate, hh, hc]
  case rejectsChecksum n c k p hs hh hc hb hk hck =>
    simp [State.fetchByState, hs, Fetched.outcome, validate, hh, hc, hb, hk, hck]
  case accepts n c k p hs hh hc hb hk hck =>
    simp [State.fetchByState, hs, Fetched.outcome, validate, hh, hc, hb, hk, hck]
  case stores f hs hb hp =>
    simp [State.fetchByState, hs, hb, Fetched.outcome, runSymbol, exec, execSkWrite, State.inState, sinkWrite, hp]
  case storeFails f hs hb hp =>
    simp [State.fetchByState, hs, hb, Fetched.outcome, runSymbol, exec, execSkWrite, State.inState, sinkWrite, hp]
  case acksBlock r f hs hp hg =>
    rw [txGoesOn_eq] at hg
    simp [State.fetchByState, hs, Fetched.outcome, runSymbol, exec, execTxAck, ackBlock, txWrite, hp, hg, txGoesOn_eq]
  case ackFails r f hs hp hg =>
    rw [txGoesOn_eq] at hg
    simp [State.fetchByState, hs, Fetched.outcome, runSymbol, exec, execTxAck, ackBlock, txWrite, hp, hg, txGoesOn_eq]
  case probes r f hs hp =>
    simp [State.fetchByState, hs, Fetched.outcome, runSymbol, exec, execTxNak, txWrite, hp]
  case naksBlock r f hs hp =>
    simp [State.fetchByState, hs, Fetched.outcome, runSymbol, exec, execTxNak, txWrite, hp]
  case strayBetween b f hs hb hp =>
    simp [State.fetchByState, hs, fetchRx, hp, Fetched.outcome, RxResponse.word, runSymbol, decode, decodeNc,
      decodeCtrl_of_stray hb, exec, execNcStray, hb, State.inState]

theorem step_of_works (hq : s.proceeds) (hw : Works s.hostTaken t) : step s = .next t := by
  rw [step_of_proceeds hq]
  exact fetchByState_of_works hw

/-- A step under a quiet CTRL port, in the form runs are proved with. -/
theorem step_of_works_quiet (hq : s.hostIn = []) (hw : Works s t) : step s = .next t := by
  obtain ⟨hp, ht⟩ := proceeds_of_quiet hq
  exact step_of_works hp (ht.symm ▸ hw)

end

/-! Runs, step by step. -/

@[simp] theorem run_zero (s : State) : core.run 0 s = .next s := rfl

section
variable {M : Host.Core} {x y : M.State} {n : Nat}

/-- A run of one step more is the step and then the run. -/
theorem coreRun_succ_of_step (h : M.step x = .next y) : M.run (n + 1) x = M.run n y := by
  rw [Host.Core.run, h]

theorem coreRun_succ_next (h : M.run (n + 1) x = .next y) : ∃ z : M.State, M.step x = .next z ∧ M.run n z = .next y := by
  rw [Host.Core.run] at h
  split at h
  · exact ⟨_, ‹_›, h⟩
  · cases h
  · cases h

end

theorem run_succ_of_step {s t : State} (h : step s = .next t) (n : Nat) : core.run (n + 1) s = core.run n t :=
  coreRun_succ_of_step (M := core) h

theorem run_succ_next {s t : State} {n : Nat} (h : core.run (n + 1) s = .next t) :
    ∃ u : State, step s = .next u ∧ core.run n u = .next t :=
  coreRun_succ_next (M := core) h

theorem run_add_of_run {s t : State} {m : Nat} (h : core.run m s = .next t) (n : Nat) :
    core.run (m + n) s = core.run n t := by
  induction m generalizing s with
  | zero => cases h; rw [Nat.zero_add]
  | succ m ih =>
    obtain ⟨u, hu, h⟩ := run_succ_next h
    rw [Nat.succ_add, run_succ_of_step hu]
    exact ih h

end Sys2Proof.Machine
end

