-- ==== Sys2Proof/Tests/Slice0.lean ====
section
/-!
SUPPORT. Tests of the definitions, with expected values from the spec's tables and from `95_test_vectors.md`; and, for
every statement with hypotheses, a theorem that a concrete state meets them.
-/
namespace Sys2Proof.Tests

open Sys2Proof Sys2Proof.Machine

/-! The proofs below are run one after another: each started at once in a thread of its own is more memory than a check
has. -/
set_option Elab.async false

/-! ## Helpers -/

/-- What a test looks at of a next state; nothing where the machine stops. -/
def view {α : Type} (f : State → α) (r : Result) : Option α :=
  match r with
  | .next s => some (f s)
  | .fault _ => none
  | .refused _ => none

/-- Why the machine stopped. -/
def stop (r : Result) : Option (Fault ⊕ Refusal) :=
  match r with
  | .next _ => none
  | .fault x => some (.inl x)
  | .refused x => some (.inr x)

/-- A next state with a property that a test can decide. -/
theorem next_of_view {s : State} {p : State → Bool} (h : view p (step s) = some true) :
    ∃ t : State, step s = .next t ∧ p t = true := by
  unfold view at h
  split at h
  · exact ⟨_, ‹_›, by simpa using h⟩
  · cases h
  · cases h

/-- Every register holds a value. -/
def allHeld : Held :=
  { ctrl := true, hdrNum := true, hdrCmp := true, rxCk := true, buf := Vector.replicate blockSize true }

/-- A state of the controller with quiet collaborators and a good block of 0x41 in the frame registers (its checksum is
0x80 by R141's example). -/
def held (c : Ctl) : State :=
  { State.reset with
    state := c, held := allHeld, hdrNum := 0x01#8, hdrCmp := 0xFE#8, buf := Vector.replicate blockSize 0x41#8
    rxCk := 0x80#8 }

/-- The same with the channel's next answer to a read. -/
def reads (c : Ctl) (r : RxResponse) : State := { held c with rxIn := Feed.ofList [r] }

/-- The same with the channel's next answer to a write. -/
def writes (c : Ctl) (r : TxResponse) : State := { held c with txIn := Feed.ofList [r] }

/-- The other policy of R177. -/
def fatal : Params := { Params.hardware with txFailPolicy := .fatal }

/-! ## Well-formedness: each check refuses an ill-formed term -/

theorem test_wf_refuses_soh_as_stray : (Instr.hsStray 0x01#8).wf = false := by decide
theorem test_wf_refuses_eot_as_stray : (Instr.hsStray 0x04#8).wf = false := by decide
theorem test_wf_refuses_eot_as_other : (Instr.acOther 0x04#8).wf = false := by decide
theorem test_wf_refuses_soh_between : (Instr.ncStray 0x01#8).wf = false := by decide
theorem test_wf_takes_other_bytes : (Instr.hsStray 0x00#8).wf = true ∧ (Instr.ncStray 0xFF#8).wf = true := by decide

/-! ## Decoding: words written out from `30_encoding.md` R81 and `opcode_table.json` -/

theorem test_decode_hs :
    decode .hs [0b00000001#8] = .ok .hsSoh ∧ decode .hs [0b00000100#8] = .ok .hsEot ∧
      decode .hs [0b01000011#8] = .ok (.hsStray 0x43#8) ∧ decode .hs [] = .ok .hsTimeout := by decide

/-- R82 compares all 8 bits: 0x81 and 0x84 are stray. -/
theorem test_decode_compares_all_bits :
    decode .hs [0b10000001#8] = .ok (.hsStray 0x81#8) ∧ decode .nc [0b10000100#8] = .ok (.ncStray 0x84#8) := by decide

theorem test_decode_ac :
    decode .ac [0b00000100#8] = .ok .acEot ∧ decode .ac [0b00000001#8] = .ok .acSoh ∧
      decode .ac [0b00000000#8] = .ok (.acOther 0x00#8) := by decide

/-- R87: SOH, EOT and NAK are data inside a frame. -/
theorem test_decode_frame :
    decode .frHdr [0b00000100#8] = .ok (.frHdr 0x04#8) ∧ decode .frData [0b00000001#8] = .ok (.frData 0x01#8) ∧
      decode .frCksum [0b00010101#8] = .ok (.frCksum 0x15#8) ∧ decode .frHdr [] = .ok .frHdrTimeout ∧
      decode .frData [] = .ok .frDataTimeout ∧ decode .frCksum [] = .ok .frCksumTimeout := by decide

theorem test_decode_nc :
    decode .nc [0b00000001#8] = .ok .ncSoh ∧ decode .nc [0b00000100#8] = .ok .ncEot ∧
      decode .nc [0b01010101#8] = .ok (.ncStray 0x55#8) ∧ decode .nc [] = .ok .ncTimeout := by decide

theorem test_decode_tx :
    decode .tx [0b00000110#8] = .ok .txAck ∧ decode .tx [0b00010101#8] = .ok .txNak := by decide

/-- R90: no other byte is ever transmitted. -/
theorem test_decode_tx_refuses : decode .tx [0x18#8] = .error (.neverTransmitted 0x18#8) := by decide

/-- R80: 128 bytes, and no other length, are a sink write. -/
theorem test_decode_sk :
    decode .sk (List.replicate 128 0x41#8) = .ok (.skWrite (Vector.replicate blockSize 0x41#8)) ∧
      decode .sk (List.replicate 127 0x41#8) = .error .notABlock := by decide +kernel

theorem test_decode_refuses_two_bytes : decode .hs [0x01#8, 0x01#8] = .error .tooLong := by decide

/-- The table's numbering (log entry 9): 8 bits by the table alone, 16 with a context, no bits for `RxTimeout`. -/
theorem test_table_words :
    decodeTableWord 8 0x01 = some .hsSoh ∧ decodeTableWord 8 0x04 = some .hsEot ∧
      decodeTableWord 8 0x06 = some .txAck ∧ decodeTableWord 8 0x15 = some .txNak ∧
      decodeTableWord 8 0x00 = some (.hsStray 0x00#8) ∧ decodeTableWord 0 0 = some .hsTimeout ∧
      decodeTableWord 16 0x0201 = some .acSoh ∧ decodeTableWord 16 0x0604 = some .ncEot ∧
      decodeTableWord 16 0x04A5 = some (.frData 0xA5#8) ∧ decodeTableWord 16 0x8600 = some .ncTimeout := by decide

theorem test_table_word_of_a_block :
    decodeTableWord 1024 0x0201 =
      some (.skWrite (((Vector.replicate blockSize 0x00#8).setIfInBounds 0 0x01#8).setIfInBounds 1 0x02#8)) := by decide +kernel

/-- A placed word is what the next step runs. -/
theorem test_placed_word_runs :
    view State.state (step (State.reset.withFetchWord 8 0x01)) = some .awaitCtrl ∧
      view State.state (step (State.reset.withFetchWord 0 0)) = some .hsNak ∧
      view State.state (step (State.reset.withFetchWord 8 0x06)) = some .nextCtrl ∧
      view State.state (step (State.reset.withFetchWord 1024 0)) = some .accAck := by decide +kernel

/-! ## One step of each row -/

/-- R103: the accepted byte stands in `ctrl`, and in `RxLog`. -/
theorem test_hs_soh :
    view (fun t => (t.state, t.ctrl, t.rxLog)) (step (reads .hsRead (.byte 0x01#8))) =
      some (.awaitCtrl, 0x01#8, [.got (.byte 0x01#8)]) := by decide +kernel

theorem test_hs_eot :
    view (fun t => (t.state, t.ctrl)) (step (reads .hsRead (.byte 0x04#8))) = some (.awaitCtrl, 0x04#8) := by
  decide +kernel

/-- R104: `retry` does not move, and `ctrl` is not written. -/
theorem test_hs_stray :
    view (fun t => (t.state, t.retry, t.ctrl)) (step { reads .hsRead (.byte 0x43#8) with retry := 5 }) =
      some (.hsNak, 5#8, 0x00#8) := by decide +kernel

/-- R102: the twentieth timeout is within the ceiling. -/
theorem test_hs_timeout_at_ceiling :
    view (fun t => (t.state, t.retry)) (step { reads .hsRead .timeout with retry := 19 }) = some (.hsNak, 20#8) := by
  decide +kernel

/-- R102, `95_test_vectors.md`: the twenty-first ends the handshake with STATUS 0x0015019D. -/
theorem test_hs_timeout_past_ceiling :
    view State.status (step { reads .hsRead .timeout with retry := 20 }) = some 0x0015019D#32 := by decide +kernel

/-- R120, `95_test_vectors.md`: STATUS 0x0000018C. -/
theorem test_ac_eot :
    view (fun t => (t.status, t.txLog)) (step { writes .awaitCtrl .ok with ctrl := 0x04#8 }) =
      some (0x0000018C#32, [(0x06#8, .got .ok)]) := by decide +kernel

/-- R177, `95_test_vectors.md`: a failed ACK of EOT under `Fatal` ends with STATUS 0x000001FD. -/
theorem test_ac_eot_fatal :
    view State.status (step { writes .awaitCtrl .fail with ctrl := 0x04#8, params := fatal }) = some 0x000001FD#32 := by
  decide +kernel

/-- R121: an internal step. -/
theorem test_ac_soh :
    view (fun t => (t.state, t.idx, t.txLog)) (step { held .awaitCtrl with ctrl := 0x01#8 }) =
      some (.rxHeader, 0#8, []) := by decide +kernel

/-- R122: `F_MODEL_UNREACHABLE`. -/
theorem test_ac_other : stop (step { held .awaitCtrl with ctrl := 0x15#8 }) = some (.inl .modelUnreachable) := by
  decide +kernel

theorem test_fr_hdr_number :
    view (fun t => (t.state, t.idx, t.hdrNum, t.hdrCmp)) (step (reads .rxHeader (.byte 0xA5#8))) =
      some (.rxHeader, 1#8, 0xA5#8, 0xFE#8) := by decide +kernel

theorem test_fr_hdr_complement :
    view (fun t => (t.state, t.idx, t.hdrNum, t.hdrCmp)) (step { reads .rxHeader (.byte 0x5A#8) with idx := 1 }) =
      some (.rxPayload, 0#8, 0x01#8, 0x5A#8) := by decide +kernel

/-- `95_test_vectors.md`: STATUS 0x000001AD. -/
theorem test_fr_hdr_timeout :
    view (fun t => (t.status, t.idx)) (step { reads .rxHeader .timeout with idx := 1 }) = some (0x000001AD#32, 0#8) := by
  decide +kernel

theorem test_fr_data_first :
    view (fun t => (t.state, t.idx, t.buf[0], t.buf[1])) (step (reads .rxPayload (.byte 0x77#8))) =
      some (.rxPayload, 1#8, 0x77#8, 0x41#8) := by decide +kernel

theorem test_fr_data_last :
    view (fun t => (t.state, t.idx, t.buf[127], t.buf[126])) (step { reads .rxPayload (.byte 0x77#8) with idx := 127 }) =
      some (.rxChecksum, 0#8, 0x77#8, 0x41#8) := by decide +kernel

/-- `95_test_vectors.md`: STATUS 0x000001BD. -/
theorem test_fr_data_timeout :
    view State.status (step { reads .rxPayload .timeout with idx := 127 }) = some 0x000001BD#32 := by decide +kernel

theorem test_fr_cksum :
    view (fun t => (t.state, t.rxCk)) (step (reads .rxChecksum (.byte 0x04#8))) = some (.validating, 0x04#8) := by
  decide +kernel

/-- `95_test_vectors.md`: STATUS 0x000001CD. -/
theorem test_fr_cksum_timeout :
    view State.status (step (reads .rxChecksum .timeout)) = some 0x000001CD#32 := by decide +kernel

theorem test_nc_soh :
    view (fun t => (t.state, t.ctrl)) (step (reads .nextCtrl (.byte 0x01#8))) = some (.awaitCtrl, 0x01#8) := by
  decide +kernel

theorem test_nc_eot :
    view (fun t => (t.state, t.ctrl)) (step (reads .nextCtrl (.byte 0x04#8))) = some (.awaitCtrl, 0x04#8) := by
  decide +kernel

/-- R162: nothing is transmitted. -/
theorem test_nc_stray :
    view (fun t => (t.state, t.txLog, t.rxLog)) (step (reads .nextCtrl (.byte 0x55#8))) =
      some (.nextCtrl, [], [.got (.byte 0x55#8)]) := by decide +kernel

/-- R160, `95_test_vectors.md`: after one good block, STATUS 0x010002DD. -/
theorem test_nc_timeout :
    view State.status (step { reads .nextCtrl .timeout with expBlk := 2, verdict := .accept }) =
      some 0x010002DD#32 := by decide +kernel

/-- R145: the counter wraps from 0xFF to 0x00, and not to 0x01. -/
theorem test_tx_ack_wraps :
    view (fun t => (t.state, t.expBlk)) (step { writes .accAck .ok with expBlk := 0xFF#8 }) =
      some (.nextCtrl, 0x00#8) := by decide +kernel

/-- R145, `95_test_vectors.md`: a failed ACK under `Fatal` leaves the counter, STATUS 0x010001FD. -/
theorem test_tx_ack_fatal :
    view State.status (step { writes .accAck .fail with verdict := .accept, params := fatal }) =
      some 0x010001FD#32 := by decide +kernel

theorem test_tx_nak_probe :
    view (fun t => (t.state, t.txLog)) (step (writes .hsNak .fail)) = some (.hsRead, [(0x15#8, .got .fail)]) := by
  decide +kernel

theorem test_tx_nak_reject :
    view (fun t => (t.state, t.txLog, t.verdict)) (step { writes .rejNak .ok with verdict := .checksumError }) =
      some (.nextCtrl, [(0x15#8, .got .ok)], .checksumError) := by decide +kernel

theorem test_sk_write :
    view (fun t => (t.state, t.sinkLog.map (fun p => p.toList.length)))
        (step { held .accWrite with sinkIn := Feed.ofList [.ok] }) = some (.accAck, [128]) := by decide +kernel

/-- R144, `95_test_vectors.md`: STATUS 0x010001ED, and the block is not in `SinkLog`. -/
theorem test_sk_write_fails :
    view (fun t => (t.status, t.sinkLog.length))
        (step { held .accWrite with sinkIn := Feed.ofList [.fail], verdict := .accept }) =
      some (0x010001ED#32, 0) := by decide +kernel

/-! ## The internal steps, and the host's -/

/-- R142: of a block with both checks wrong, the complement is the verdict. -/
theorem test_validate_order :
    view (fun t => (t.state, t.verdict, t.event)) (step { held .validating with hdrCmp := 0x01#8, rxCk := 0x00#8 }) =
      some (.rejNak, .blockNumberMismatch, .blockNumberMismatch) := by decide +kernel

/-- R141: 128 bytes of 0x41 sum to 0x80 modulo 256. -/
theorem test_validate_sums :
    view State.verdict (step (held .validating)) = some .accept ∧
      view State.verdict (step { held .validating with rxCk := 0x81#8 }) = some .checksumError := by decide +kernel

/-- R203: `start` in `FAILED` clears the failure and keeps the frame registers. -/
theorem test_start_after_failure :
    view (fun t => (t.state, t.fail, t.expBlk, t.hdrNum, t.held))
        (step { held .failed with fail := .sinkWriteError, expBlk := 9, hostIn := [{ reset := false, start := true }] }) =
      some (.hsNak, .none, 1#8, 0x01#8, allHeld) := by decide +kernel

/-- V-EX-5: past the two written answers of `TX: ok fail` the third write is answered `TxOk`. -/
theorem test_script_tx_runs_out :
    (Feed.thenAlways TxResponse.ok (some [.ok, .fail])).pull.2.pull.2.pull.1 = some .ok := by decide

/-- R214: two answers that come over and over. -/
theorem test_endless_feed_repeats :
    let f := Feed.endless [RxResponse.byte 0x55#8, RxResponse.byte 0xAA#8]
    f.pull.1 = some (.byte 0x55#8) ∧ f.pull.2.pull.1 = some (.byte 0xAA#8) ∧ f.pull.2.pull.2 = f := by decide

/-- R201: the answer that an aborted read would have had is not the next read's. -/
theorem test_abort_drops_answer_of_endless_feed :
    (Feed.endless [RxResponse.byte 0x55#8, RxResponse.byte 0xAA#8]).dropAnswer.pull.1 = some (.byte 0xAA#8) := by decide

/-- R201: the read that a reset aborts is recorded as dropped. -/
theorem test_reset_drops :
    view (fun t => (t.state, t.rxLog, t.outstanding))
        (step { held .rxPayload with outstanding := some .rxRead, hostIn := [{ reset := true, start := true }] }) =
      some (.idle, [.dropped], none) := by decide +kernel

/-- R54's layout, on its example of a finished one-block transfer: 0x0100028C. -/
theorem test_status :
    ({ held .complete with expBlk := 2, verdict := .accept }).status = 0x0100028C#32 := by decide +kernel

/-! ## Every statement's hypotheses are met -/

theorem witness_HostResetWritesTheResetColumn :
    ({ held .accAck with hostIn := [{ reset := true, start := false }] }).hostSample.reset = true := by decide +kernel

/-- A reset with each kind of transaction outstanding, and with none. -/
theorem witness_ResetDropsTheOutstandingTransaction :
    (∃ s : State, s.hostSample.reset = true ∧ s.outstanding = some .rxRead) ∧
      (∃ s : State, s.hostSample.reset = true ∧ s.outstanding = some (.txWrite 0x06#8)) ∧
      (∃ s : State, s.hostSample.reset = true ∧ s.outstanding = some (.sinkWrite s.buf)) ∧
      (∃ s : State, s.hostSample.reset = true ∧ s.outstanding = none) := by
  refine ⟨⟨{ held .hsRead with outstanding := some .rxRead, hostIn := [{ reset := true, start := false }] }, ?_⟩,
    ⟨{ held .accAck with outstanding := some (.txWrite 0x06#8), hostIn := [{ reset := true, start := true }] }, ?_⟩,
    ⟨{ held .accWrite with outstanding := some (.sinkWrite (held .accWrite).buf), hostIn := [{ reset := true, start := false }] }, ?_⟩,
    ⟨{ held .idle with hostIn := [{ reset := true, start := false }] }, ?_⟩⟩ <;> decide +kernel

/-- A `start` in each state that takes it, and a NAK answered after it. -/
theorem witness_StartBeginsASession (c : Ctl) (hc : c = .idle ∨ c = .complete ∨ c = .failed) :
    ∃ s : State, s.hostSample.reset = false ∧ s.hostSample.start = true ∧ s.state = c ∧
      view (fun t => (t.hostSample.reset, t.txIn.pull)) (step s) = some (false, (some .ok, Feed.ofList [])) := by
  refine ⟨{ writes c .ok with hostIn := [{ reset := false, start := true }] }, rfl, rfl, rfl, ?_⟩
  rcases hc with rfl | rfl | rfl <;> decide +kernel

theorem witness_StartIsIgnoredInASession :
    ∃ (s : State) (rest : List HostSample), s.hostIn = { reset := false, start := true } :: rest ∧
      s.state ≠ .idle ∧ s.state ≠ .complete ∧ s.state ≠ .failed :=
  ⟨{ held .rxPayload with hostIn := [{ reset := false, start := true }] }, [], by decide +kernel⟩

theorem proceeds_held (c : Ctl) : (held c).proceeds := ⟨rfl, rfl⟩

/-- `IDLE` both without and with a `start`. -/
theorem witness_IdleWaitsForStart :
    (∃ s : State, s.state = .idle ∧ s.proceeds) ∧
      (∃ s : State, s.state = .idle ∧ ∃ t : State, step s = .next t ∧ decide (t.state ≠ .idle) = true) :=
  ⟨⟨held .idle, rfl, proceeds_held .idle⟩,
    ⟨{ held .idle with hostIn := [{ reset := false, start := true }] }, rfl, next_of_view (by decide +kernel)⟩⟩

/-- `COMPLETE` and `FAILED` at rest, left by `start`, and left by a reset. -/
theorem witness_TerminalStatesHold :
    (∃ s : State, s.state = .complete ∧ s.proceeds) ∧ (∃ s : State, s.state = .failed ∧ s.proceeds) ∧
      (∃ s : State, s.state = .complete ∧ ∃ t : State, step s = .next t ∧ decide (t.state ≠ s.state) = true) ∧
      (∃ s : State, s.state = .failed ∧ ∃ t : State, step s = .next t ∧ decide (t.state ≠ s.state) = true) :=
  ⟨⟨held .complete, rfl, proceeds_held .complete⟩, ⟨held .failed, rfl, proceeds_held .failed⟩,
    ⟨{ held .complete with hostIn := [{ reset := false, start := true }] }, rfl, next_of_view (by decide +kernel)⟩,
    ⟨{ held .failed with hostIn := [{ reset := true, start := true }] }, rfl, next_of_view (by decide +kernel)⟩⟩

/-- The three ways a write ends, in whatever state: `TxOk`; `TxFail` under `Ignore`; `TxFail` under `Fatal`. -/
theorem witness_writes (c : Ctl) :
    (∃ s : State, s.state = c ∧ s.txIn.pull = (some .ok, Feed.ofList [])) ∧
      (∃ s : State, s.state = c ∧ s.txIn.pull = (some .fail, Feed.ofList []) ∧ s.params.txFailPolicy = .ignore) ∧
      (∃ s : State, s.state = c ∧ s.txIn.pull = (some .fail, Feed.ofList []) ∧ s.params.txFailPolicy = .fatal) :=
  ⟨⟨writes c .ok, rfl, rfl⟩, ⟨writes c .fail, rfl, rfl, rfl⟩, ⟨{ writes c .fail with params := fatal }, rfl, rfl, rfl⟩⟩

theorem witness_HandshakeProbeSendsNak :
    (writes .hsNak .fail).state = .hsNak ∧ (writes .hsNak .fail).txIn.pull = (some .fail, Feed.ofList []) :=
  ⟨rfl, rfl⟩

/-- Both sides of the ceiling: `retry` 19 and 20 under 20, and 254 under 254. -/
theorem witness_HandshakeTimeoutCountsToTheCeiling :
    (∃ s : State, s.state = .hsRead ∧ s.retry = 19 ∧ ¬ s.retry.toNat + 1 > s.params.retryCeiling.val) ∧
      (∃ s : State, s.state = .hsRead ∧ s.retry = 20 ∧ s.retry.toNat + 1 > s.params.retryCeiling.val) ∧
      (∃ s : State, s.state = .hsRead ∧ s.retry = 254 ∧ s.retry.toNat + 1 > s.params.retryCeiling.val) :=
  ⟨⟨{ held .hsRead with retry := 19 }, by decide +kernel⟩, ⟨{ held .hsRead with retry := 20 }, by decide +kernel⟩,
    ⟨{ held .hsRead with retry := 254, params := { Params.hardware with retryCeiling := 254 } }, by decide +kernel⟩⟩

theorem witness_HandshakeControlByteIsCarried : (held .hsRead).state = .hsRead := rfl

theorem witness_HandshakeStrayByteIsIgnored :
    (held .hsRead).state = .hsRead ∧ (0x00#8 : Byte) ≠ 0x01#8 ∧ (0x00#8 : Byte) ≠ 0x04#8 := by decide +kernel

theorem witness_EotIsAcknowledgedAndCompletes :
    ∃ s : State, s.state = .awaitCtrl ∧ s.held.ctrl = true ∧ s.ctrl = 0x04#8 ∧
      s.txIn.pull = (some .fail, Feed.ofList []) :=
  ⟨{ writes .awaitCtrl .fail with ctrl := 0x04#8 }, rfl, rfl, rfl, rfl⟩

theorem witness_SohStartsAFrame :
    ∃ s : State, s.state = .awaitCtrl ∧ s.held.ctrl = true ∧ s.ctrl = 0x01#8 :=
  ⟨{ held .awaitCtrl with ctrl := 0x01#8 }, rfl, rfl, rfl⟩

/-- Each stop: a `ctrl` of 0x00, the two reserved states, and each register that a step reads while it holds no value. -/
theorem witness_UnreachableStatesFault :
    (∃ s : State, s.proceeds ∧ s.state = .awaitCtrl ∧ s.held.ctrl = true ∧ s.ctrl ≠ 0x01#8 ∧ s.ctrl ≠ 0x04#8) ∧
      (∃ s : State, s.proceeds ∧ s.state = .reserved14) ∧ (∃ s : State, s.proceeds ∧ s.state = .reserved15) ∧
      (∃ s : State, s.proceeds ∧ s.state = .awaitCtrl ∧ s.held.ctrl = false) ∧
      (∃ s : State, s.proceeds ∧ s.state = .validating ∧ s.held.hdrNum = false) ∧
      (∃ s : State, s.proceeds ∧ s.state = .validating ∧ s.held.hdrCmp = false) ∧
      (∃ s : State, s.proceeds ∧ s.state = .accWrite ∧ ∃ i : Fin blockSize, s.held.buf[i] = false) :=
  ⟨⟨held .awaitCtrl, proceeds_held _, by decide +kernel⟩, ⟨held .reserved14, proceeds_held _, rfl⟩,
    ⟨held .reserved15, proceeds_held _, rfl⟩,
    ⟨{ State.reset with state := .awaitCtrl }, ⟨rfl, rfl⟩, rfl, rfl⟩,
    ⟨{ State.reset with state := .validating }, ⟨rfl, rfl⟩, rfl, rfl⟩,
    ⟨{ held .validating with held := { allHeld with hdrCmp := false } }, ⟨rfl, rfl⟩, rfl, rfl⟩,
    ⟨{ held .accWrite with held := { allHeld with buf := allHeld.buf.setIfInBounds 127 false } }, ⟨rfl, rfl⟩, rfl, 127,
      by decide +kernel⟩⟩

/-- Both header positions. -/
theorem witness_HeaderBytesAreReceived :
    ((held .rxHeader).state = .rxHeader ∧ (held .rxHeader).idx = 0) ∧
      (({ held .rxHeader with idx := 1 }).state = .rxHeader ∧ ({ held .rxHeader with idx := 1 }).idx = 1) := by
  decide +kernel

/-- The payload's first position, the last but one, and the last. -/
theorem witness_PayloadBytesAreReceived :
    ((held .rxPayload).state = .rxPayload ∧ (held .rxPayload).idx.toNat < 127) ∧
      (({ held .rxPayload with idx := 126 }).state = .rxPayload ∧ ({ held .rxPayload with idx := 126 }).idx.toNat < 127) ∧
      (({ held .rxPayload with idx := 127 }).state = .rxPayload ∧ ({ held .rxPayload with idx := 127 }).idx = 127) := by
  decide +kernel

theorem witness_ChecksumByteIsReceived : (held .rxChecksum).state = .rxChecksum := rfl

theorem bufHolds_held (c : Ctl) : (held c).bufHolds := by
  intro i
  simp [held, allHeld]

/-- All three verdicts. -/
theorem witness_ValidationDecidesInOrder :
    (∃ s : State, s.proceeds ∧ s.state = .validating ∧ s.held.hdrNum = true ∧ s.held.hdrCmp = true ∧
      ¬ (s.hdrNum.toNat + s.hdrCmp.toNat) % 256 = 0xFF) ∧
      (∃ s : State, s.proceeds ∧ s.state = .validating ∧ s.held.hdrNum = true ∧ s.held.hdrCmp = true ∧
        (s.hdrNum.toNat + s.hdrCmp.toNat) % 256 = 0xFF ∧ s.bufHolds ∧ s.held.rxCk = true ∧
        ¬ (s.buf.toList.map BitVec.toNat).sum % 256 = s.rxCk.toNat) ∧
      (∃ s : State, s.proceeds ∧ s.state = .validating ∧ s.held.hdrNum = true ∧ s.held.hdrCmp = true ∧
        (s.hdrNum.toNat + s.hdrCmp.toNat) % 256 = 0xFF ∧ s.bufHolds ∧ s.held.rxCk = true ∧
        (s.buf.toList.map BitVec.toNat).sum % 256 = s.rxCk.toNat) :=
  ⟨⟨{ held .validating with hdrCmp := 0xFF#8 }, ⟨rfl, rfl⟩, by decide +kernel⟩,
    ⟨{ held .validating with rxCk := 0x7F#8 }, ⟨rfl, rfl⟩, rfl, rfl, rfl, by decide +kernel, bufHolds_held .validating, rfl,
      by decide +kernel⟩,
    ⟨held .validating, ⟨rfl, rfl⟩, rfl, rfl, rfl, by decide +kernel, bufHolds_held .validating, rfl, by decide +kernel⟩⟩

/-- Both answers of the sink. -/
theorem witness_AcceptedPayloadIsWrittenToTheSink :
    (∃ s : State, s.state = .accWrite ∧ s.bufHolds ∧ s.sinkIn.pull = (some .ok, Feed.ofList [])) ∧
      (∃ s : State, s.state = .accWrite ∧ s.bufHolds ∧ s.sinkIn.pull = (some .fail, Feed.ofList [])) :=
  ⟨⟨{ held .accWrite with sinkIn := Feed.ofList [.ok] }, rfl, bufHolds_held .accWrite, rfl⟩,
    ⟨{ held .accWrite with sinkIn := Feed.ofList [.fail] }, rfl, bufHolds_held .accWrite, rfl⟩⟩

/-- The counter at its wrap. -/
theorem witness_AcceptedBlockIsAcknowledged :
    ∃ s : State, s.state = .accAck ∧ s.txIn.pull = (some .ok, Feed.ofList []) ∧ (s.expBlk.toNat + 1) % 256 = 0 :=
  ⟨{ writes .accAck .ok with expBlk := 0xFF#8 }, rfl, rfl, by decide +kernel⟩

theorem witness_RejectedBlockIsNaked :
    (writes .rejNak .fail).state = .rejNak ∧ (writes .rejNak .fail).txIn.pull = (some .fail, Feed.ofList []) :=
  ⟨rfl, rfl⟩

theorem witness_NextBlockTimeoutIsFatal : (held .nextCtrl).state = .nextCtrl := rfl

theorem witness_NextControlByteIsCarried : (held .nextCtrl).state = .nextCtrl := rfl

theorem witness_NextStrayByteIsIgnored :
    (held .nextCtrl).state = .nextCtrl ∧ (0xFF#8 : Byte) ≠ 0x01#8 ∧ (0xFF#8 : Byte) ≠ 0x04#8 := by decide +kernel

theorem witness_StepRunsTheDecodedSymbol :
    ∃ (s t : State) (c : Context) (w : List Byte) (i : Instr), fetch s = .symbol c w t ∧ decode c w = .ok i :=
  ⟨reads .hsRead (.byte 0x01#8), _, _, _, .hsSoh, rfl, by decide⟩

/-- A byte and a timeout in each reading state, and the states that decode something of their own. -/
theorem witness_EachStateFetchesItsSymbol :
    (∀ c : Ctl, (reads c (.byte 0x04#8)).proceeds ∧ (reads c (.byte 0x04#8)).state = c ∧
      (reads c (.byte 0x04#8)).rxIn.pull = (some (.byte 0x04#8), Feed.ofList [])) ∧
      (∀ c : Ctl, (reads c .timeout).proceeds ∧ (reads c .timeout).state = c ∧
        (reads c .timeout).rxIn.pull = (some .timeout, Feed.ofList [])) ∧
      (∀ c : Ctl, (held c).proceeds ∧ (held c).state = c ∧ (held c).held.ctrl = true ∧ (held c).bufHolds) :=
  ⟨fun _ => ⟨⟨rfl, rfl⟩, rfl, rfl⟩, fun _ => ⟨⟨rfl, rfl⟩, rfl, rfl⟩, fun c => ⟨⟨rfl, rfl⟩, rfl, rfl, bufHolds_held c⟩⟩

/-- A wait for each of the three responses. -/
theorem witness_WaitingHoldsEveryRegister :
    (∃ s : State, s.proceeds ∧ s.request = some .rxRead ∧ s.rxIn.pull = (none, Feed.silent)) ∧
      (∃ s : State, s.proceeds ∧ s.request = some (.txWrite 0x06#8) ∧ s.state = .awaitCtrl ∧ s.held.ctrl = true ∧
        s.txIn.pull = (none, Feed.silent)) ∧
      (∃ s : State, s.proceeds ∧ s.request = some (.txWrite 0x15#8) ∧ s.state = .rejNak ∧
        s.txIn.pull = (none, Feed.silent)) ∧
      (∃ s : State, s.proceeds ∧ s.request = some (.sinkWrite s.buf) ∧ s.bufHolds ∧
        s.sinkIn.pull = (none, Feed.silent)) :=
  ⟨⟨held .rxPayload, proceeds_held _, rfl, rfl⟩,
    ⟨{ held .awaitCtrl with ctrl := 0x04#8 }, ⟨rfl, rfl⟩, rfl, rfl, rfl, rfl⟩,
    ⟨held .rejNak, proceeds_held _, rfl, rfl, rfl⟩, ⟨held .accWrite, proceeds_held _, rfl, bufHolds_held _, rfl⟩⟩

/-- A row of each kind outside its state. -/
theorem witness_RowsOutsideTheirStateAreRefused :
    (Instr.frData 0x00#8).wf = true ∧ (held .idle).state.isReserved = false ∧
      (held .idle).state ≠ fetchState (.frData 0x00#8) ∧ (Instr.frData 0x00#8).context ≠ .tx ∧
      (Instr.frData 0x00#8).context ≠ .ac ∧ (held .idle).state ≠ fetchState .acSoh ∧
      (held .idle).state ≠ fetchState .acEot ∧ (held .idle).state ≠ fetchState .txAck ∧
      (held .idle).state ≠ .awaitCtrl ∧ (held .idle).state ≠ fetchState .txNak ∧ (held .idle).state ≠ .rejNak := by
  decide +kernel

/-- Each stop beside R122's, at the edge of its range. -/
theorem witness_IllFormedUsesAreStopped :
    (∃ s : State, s.state = .rxHeader ∧ s.idx.toNat = 2) ∧ (∃ s : State, s.state = .rxPayload ∧ s.idx.toNat = 128) ∧
      (∃ s : State, s.proceeds ∧ s.state = .validating ∧ s.held.hdrNum = true ∧ s.held.hdrCmp = true ∧
        (s.hdrNum.toNat + s.hdrCmp.toNat) % 256 = 0xFF ∧ s.held.rxCk = false) ∧
      (∃ s : State, s.proceeds ∧ s.state = .validating ∧ s.held.hdrNum = true ∧ s.held.hdrCmp = true ∧
        (s.hdrNum.toNat + s.hdrCmp.toNat) % 256 = 0xFF ∧ ∃ i : Fin blockSize, s.held.buf[i] = false) ∧
      (∃ s : State, s.state = .awaitCtrl ∧ s.held.ctrl = true ∧ s.ctrl = 0x04#8) ∧
      (∃ s : State, s.state = .awaitCtrl ∧ s.held.ctrl = true ∧ s.ctrl = 0x01#8) ∧
      (∃ s : State, s.state = .accWrite ∧ ∃ i : Fin blockSize, s.held.buf[i] = false) ∧
      (∃ (p : Block) (s : State), s.state = .accWrite ∧ s.bufHolds ∧ p ≠ s.buf) ∧
      (∃ (i : Instr) (s : State), i.wf = true ∧ s.state = .reserved15) :=
  ⟨⟨{ held .rxHeader with idx := 2 }, rfl, by decide +kernel⟩, ⟨{ held .rxPayload with idx := 128 }, rfl, by decide +kernel⟩,
    ⟨{ held .validating with held := { allHeld with rxCk := false } }, ⟨rfl, rfl⟩, by decide +kernel⟩,
    ⟨{ held .validating with held := { allHeld with buf := allHeld.buf.setIfInBounds 0 false } }, ⟨rfl, rfl⟩, rfl, rfl,
      rfl, by decide +kernel, 0, by decide +kernel⟩,
    ⟨{ held .awaitCtrl with ctrl := 0x04#8 }, rfl, rfl, rfl⟩, ⟨{ held .awaitCtrl with ctrl := 0x01#8 }, rfl, rfl, rfl⟩,
    ⟨{ State.reset with state := .accWrite }, rfl, 127, by decide +kernel⟩,
    ⟨Vector.replicate blockSize 0x00#8, held .accWrite, rfl, bufHolds_held _, by decide +kernel⟩,
    ⟨.hsStray 0x00#8, held .reserved15, by decide, rfl⟩⟩

theorem witness_PlacedInstructionIsTheNextOneRun : (Instr.acOther 0x00#8).wf = true := by decide

theorem witness_DecodeOfEncodeIsTheInstruction : (Instr.ncStray 0x05#8).wf = true := by decide

theorem witness_EncodeOfDecodeIsTheSymbol : decode .frData [0xFF#8] = .ok (.frData 0xFF#8) := by decide

/-- A step that the controller takes and that has a property. -/
def Takes (p : State → State → Bool) : Prop :=
  ∃ s : State, s.proceeds ∧ ∃ t : State, step s = .next t ∧ p s t = true

/-- Steps that change each register. -/
theorem witness_RegistersAreWrittenOnlyByTheirRules :
    Takes (fun s t => t.expBlk != s.expBlk) ∧ Takes (fun s t => t.retry != s.retry) ∧
      Takes (fun s t => t.verdict != s.verdict) ∧ Takes (fun s t => t.ctrl != s.ctrl) ∧
      Takes (fun s t => t.hdrNum != s.hdrNum && t.idx != s.idx) ∧ Takes (fun s t => t.hdrCmp != s.hdrCmp) ∧
      Takes (fun s t => t.buf[127] != s.buf[127]) ∧ Takes (fun s t => t.rxCk != s.rxCk) ∧
      Takes (fun s t => t.fail != s.fail) :=
  ⟨⟨writes .accAck .ok, ⟨rfl, rfl⟩, next_of_view (by decide +kernel)⟩,
    ⟨reads .hsRead .timeout, ⟨rfl, rfl⟩, next_of_view (by decide +kernel)⟩,
    ⟨held .validating, ⟨rfl, rfl⟩, next_of_view (by decide +kernel)⟩,
    ⟨reads .hsRead (.byte 0x01#8), ⟨rfl, rfl⟩, next_of_view (by decide +kernel)⟩,
    ⟨reads .rxHeader (.byte 0xA5#8), ⟨rfl, rfl⟩, next_of_view (by decide +kernel)⟩,
    ⟨{ reads .rxHeader (.byte 0xA5#8) with idx := 1 }, ⟨rfl, rfl⟩, next_of_view (by decide +kernel)⟩,
    ⟨{ reads .rxPayload (.byte 0xA5#8) with idx := 127 }, ⟨rfl, rfl⟩, next_of_view (by decide +kernel)⟩,
    ⟨reads .rxChecksum (.byte 0xA5#8), ⟨rfl, rfl⟩, next_of_view (by decide +kernel)⟩,
    ⟨reads .nextCtrl .timeout, ⟨rfl, rfl⟩, next_of_view (by decide +kernel)⟩⟩

/-- Two payloads of the same bytes in another order. -/
theorem witness_ChecksumIsTheByteSum :
    ∃ p q : Block, q.toList.Perm p.toList ∧ q ≠ p :=
  ⟨(Vector.replicate blockSize 0x00#8).setIfInBounds 0 0x41#8, (Vector.replicate blockSize 0x00#8).setIfInBounds 1 0x41#8,
    by decide +kernel, by decide +kernel⟩

/-- ACK and NAK, by an answer and by a reset, where ports are legal. -/
theorem witness_OnlyAckAndNakAreTransmitted :
    (∃ s : State, PortsLegal s ∧ ∃ t : State, step s = .next t ∧ (t.txLog == [(0x06#8, .got .ok)]) = true) ∧
      (∃ s : State, PortsLegal s ∧ ∃ t : State, step s = .next t ∧ (t.txLog == [(0x15#8, .got .ok)]) = true) ∧
      (∃ s : State, PortsLegal s ∧ ∃ t : State, step s = .next t ∧ (t.txLog == [(0x06#8, .dropped)]) = true) :=
  ⟨⟨writes .accAck .ok, .inl rfl, next_of_view (by decide +kernel)⟩,
    ⟨writes .hsNak .ok, .inl rfl, next_of_view (by decide +kernel)⟩,
    ⟨{ held .accAck with outstanding := some (.txWrite 0x06#8), hostIn := [{ reset := true, start := false }] },
      .inr rfl, next_of_view (by decide +kernel)⟩⟩

/-- A read and a sink write where ports are legal. -/
theorem witness_ReadsAndSinkWritesHappenInTheirStates :
    (∃ s : State, PortsLegal s ∧ ∃ t : State, step s = .next t ∧ (t.rxLog == [.got .timeout]) = true) ∧
      (∃ s : State, PortsLegal s ∧ ∃ t : State, step s = .next t ∧ (t.sinkTrace == [(s.buf, .got .fail)]) = true) :=
  ⟨⟨reads .nextCtrl .timeout, .inl rfl, next_of_view (by decide +kernel)⟩,
    ⟨{ held .accWrite with sinkIn := Feed.ofList [.fail] }, .inl rfl, next_of_view (by decide +kernel)⟩⟩

theorem witness_OneTransactionAtMostPerStep :
    ∃ s t : State, step s = .next t ∧ (t.rxLog.length == s.rxLog.length + 1) = true :=
  ⟨reads .rxPayload (.byte 0x04#8), next_of_view (by decide +kernel)⟩

theorem witness_CompleteIsEnteredOnlyOnEot :
    ∃ s : State, s.state ≠ .complete ∧ ∃ t : State, step s = .next t ∧ (t.state == .complete) = true :=
  ⟨{ writes .awaitCtrl .ok with ctrl := 0x04#8 }, by decide +kernel, next_of_view (by decide +kernel)⟩

/-- Every reason of R170. -/
theorem witness_FailuresArePreciseAndRecordTheReason :
    Takes (fun s t => s.state != .failed && t.state == .failed && t.fail == .handshakeTimeout) ∧
      Takes (fun s t => s.state != .failed && t.state == .failed && t.fail == .headerReadError) ∧
      Takes (fun s t => s.state != .failed && t.state == .failed && t.fail == .dataReadError) ∧
      Takes (fun s t => s.state != .failed && t.state == .failed && t.fail == .checksumReadError) ∧
      Takes (fun s t => s.state != .failed && t.state == .failed && t.fail == .nextBlockTimeout) ∧
      Takes (fun s t => s.state != .failed && t.state == .failed && t.fail == .sinkWriteError) ∧
      Takes (fun s t => s.state != .failed && t.state == .failed && t.fail == .txWriteError) :=
  ⟨⟨{ reads .hsRead .timeout with retry := 20 }, ⟨rfl, rfl⟩, next_of_view (by decide +kernel)⟩,
    ⟨reads .rxHeader .timeout, ⟨rfl, rfl⟩, next_of_view (by decide +kernel)⟩,
    ⟨reads .rxPayload .timeout, ⟨rfl, rfl⟩, next_of_view (by decide +kernel)⟩,
    ⟨reads .rxChecksum .timeout, ⟨rfl, rfl⟩, next_of_view (by decide +kernel)⟩,
    ⟨reads .nextCtrl .timeout, ⟨rfl, rfl⟩, next_of_view (by decide +kernel)⟩,
    ⟨{ held .accWrite with sinkIn := Feed.ofList [.fail] }, ⟨rfl, rfl⟩, next_of_view (by decide +kernel)⟩,
    ⟨{ writes .rejNak .fail with params := fatal }, ⟨rfl, rfl⟩, next_of_view (by decide +kernel)⟩⟩

/-- The event of each rejection, and one held by a NAK that waits. -/
theorem witness_EventIsDrivenForOneStep :
    Takes (fun _ t => t.event == .blockNumberMismatch && t.state == .rejNak) ∧
      Takes (fun _ t => t.event == .checksumError && t.state == .rejNak) ∧
      Takes (fun s t => t.event == .checksumError && s.event == .checksumError && t.outstanding != none) :=
  ⟨⟨{ held .validating with hdrCmp := 0xFF#8 }, ⟨rfl, rfl⟩, next_of_view (by decide +kernel)⟩,
    ⟨{ held .validating with rxCk := 0x00#8 }, ⟨rfl, rfl⟩, next_of_view (by decide +kernel)⟩,
    ⟨{ held .rejNak with event := .checksumError }, ⟨rfl, rfl⟩, next_of_view (by decide +kernel)⟩⟩

theorem witness_SequenceCounterIsNeverConsulted :
    ∃ s t : State, step s = .next t ∧ (t.state == .accWrite) = true :=
  ⟨held .validating, next_of_view (by decide +kernel)⟩

/-! States of the invariants, and a step from each. -/

/-- The last payload byte is about to arrive. -/
def lastByte : State :=
  { reads .rxPayload (.byte 0x41#8) with
    idx := 127
    rxLog := ([0x01#8, 0x01#8, 0xFE#8] ++ List.replicate 127 0x41#8).map (fun b => .got (.byte b)) }

/-- The ACK of a stored block is about to be answered. -/
def acking : State :=
  { writes .accAck .ok with
    verdict := .accept, outstanding := some (.txWrite 0x06#8)
    sinkTrace := [(Vector.replicate blockSize 0x41#8, .got .ok)] }

/-- The handshake's twenty-first timeout is about to arrive. -/
def probing : State :=
  { reads .hsRead .timeout with
    retry := 20, rxLog := List.replicate 20 (.got .timeout), txLog := List.replicate 21 (0x15#8, .got .ok) }

theorem lastByte_inv : Inv lastByte := by
  constructor <;> simp [lastByte, reads, held, allHeld, State.reset, State.hasHdrNum, State.hasFrame, Ctl.isReserved]

theorem acking_inv : Inv acking := by
  constructor <;> simp [acking, writes, held, allHeld, State.reset, State.hasHdrNum, State.hasFrame, Ctl.isReserved]

theorem probing_inv : Inv probing := by
  constructor <;> simp [probing, reads, held, allHeld, State.reset, State.hasHdrNum, State.hasFrame, Ctl.isReserved]

theorem witness_StepKeepsTheRegisterInvariants :
    ∃ s : State, Inv s ∧ ∃ t : State, step s = .next t ∧ (t.state == .rxChecksum) = true :=
  ⟨lastByte, lastByte_inv, next_of_view (by decide +kernel)⟩

theorem witness_StepKeepsTheFrameAsReceived :
    ∃ s : State, Inv s ∧ FrameOnWire s ∧ ∃ t : State, step s = .next t ∧ (t.state == .rxChecksum) = true :=
  ⟨lastByte, lastByte_inv, by unfold FrameOnWire; decide +kernel, next_of_view (by decide +kernel)⟩

theorem witness_StepKeepsThePortDiscipline :
    ∃ s : State, PortsLegal s ∧ OnlyAckNak s ∧ SinkBeforeAck s ∧
      ∃ t : State, step s = .next t ∧ (t.state == .nextCtrl) = true :=
  ⟨acking, .inr rfl, by unfold OnlyAckNak; decide +kernel, by unfold SinkBeforeAck; decide +kernel,
    next_of_view (by decide +kernel)⟩

theorem witness_StepKeepsTheCounterLaw :
    ∃ s : State, Inv s ∧ MarksWithin s ∧ CounterLaw s ∧
      ∃ t : State, step s = .next t ∧ (t.expBlk == 2) = true :=
  ⟨acking, acking_inv, by unfold MarksWithin; decide +kernel,
    by constructor <;> simp [acking, writes, held, State.reset, State.sessionSinkLog, storedBlock, Params.hardware],
    next_of_view (by decide +kernel)⟩

theorem witness_StepKeepsTheHandshakeLaw :
    ∃ s : State, Inv s ∧ MarksWithin s ∧ HandshakeLaw s ∧
      ∃ t : State, step s = .next t ∧ (t.fail == .handshakeTimeout) = true := by
  refine ⟨probing, probing_inv, by unfold MarksWithin; decide +kernel, ⟨fun _ => ?_, fun _ => ?_, fun _ => ?_, fun _ => ?_,
    fun _ => ?_, fun h => ?_, fun _ => ?_, fun _ => ?_⟩, next_of_view (by decide +kernel)⟩
  case refine_6 => cases h
  case refine_4 => contradiction
  all_goals decide +kernel

theorem witness_StepKeepsTheRetryBound :
    ∃ s : State, Inv s ∧ RetryBounded s ∧ ∃ t : State, step s = .next t ∧ (t.retry == 21) = true :=
  ⟨probing, probing_inv, .inl (by decide +kernel), next_of_view (by decide +kernel)⟩

theorem witness_InvariantRunsNeverStop : ∃ s : State, Inv s := ⟨acking, acking_inv⟩

/-! Runs. -/

/-- A SOH in `ctrl`, and a frame on the wire that fails both checks. -/
theorem witness_FrameIsReceivedIn132Steps :
    ∃ (s : State) (n c k : Byte) (p : Block) (rest : List (Option RxResponse)),
      s.quietHost ∧ s.state = .awaitCtrl ∧ s.held.ctrl = true ∧ s.ctrl = 0x01#8 ∧
        s.rxIn.queue = (frame n c p k).map some ++ rest :=
  ⟨{ held .awaitCtrl with
      ctrl := 0x01#8, rxIn := Feed.ofList (frame 0x04#8 0x04#8 (Vector.replicate blockSize 0x01#8) 0xFF#8) },
    0x04#8, 0x04#8, 0xFF#8, Vector.replicate blockSize 0x01#8, [], rfl, rfl, rfl, rfl, by simp [Feed.ofList]⟩

/-- A timeout at once, and at each edge of a field: after 1, 2, 129 and 130 bytes. -/
theorem witness_FrameTimeoutFailsByPosition (n : Nat) (hn : n ≤ 130) :
    ∃ (s : State) (received : List Byte) (rest : List (Option RxResponse)),
      received.length = n ∧ s.quietHost ∧ s.state = .awaitCtrl ∧ s.held.ctrl = true ∧ s.ctrl = 0x01#8 ∧
        received.length ≤ 130 ∧
        s.rxIn.queue = received.map (fun b => some (RxResponse.byte b)) ++ some .timeout :: rest :=
  ⟨{ held .awaitCtrl with
      ctrl := 0x01#8
      rxIn := { queue := (List.replicate n 0x01#8).map (fun b => some (RxResponse.byte b)) ++ [some .timeout], cycle := [] } },
    List.replicate n 0x01#8, [], by simp, rfl, rfl, rfl, rfl, by simpa using hn, rfl⟩

/-- A frame that passes both checks, one that fails the second, and one that fails the first. -/
theorem witness_ValidatedFrameIsAnswered (k c : Byte) :
    ∃ s : State, s.quietHost ∧ s.state = .validating ∧ s.held.hdrNum = true ∧ s.held.hdrCmp = true ∧ s.bufHolds ∧
      s.held.rxCk = true ∧ s.txIn = Feed.always .ok ∧ s.sinkIn = Feed.always .ok ∧ s.rxCk = k ∧ s.hdrCmp = c ∧
      s.hdrNum = 0x01#8 ∧ s.buf = Vector.replicate blockSize 0x41#8 :=
  ⟨{ held .validating with txIn := Feed.always .ok, sinkIn := Feed.always .ok, rxCk := k, hdrCmp := c },
    rfl, rfl, rfl, rfl, bufHolds_held .validating, rfl, rfl, rfl, rfl, rfl, rfl, rfl⟩

theorem test_good_frame_of_0x41 :
    0xFE#8 = 0xFF#8 - 0x01#8 ∧ calcCk (Vector.replicate blockSize 0x41#8) = 0x80#8 := by decide +kernel

/-- Two blocks with one block number, and an EOT. -/
theorem witness_EveryGoodTransferCompletes (blocks : List (Byte × Block)) :
    ∃ (s : State) (rest : List (Option RxResponse)),
      s.quietHost ∧ s.state = .hsNak ∧ s.txIn = Feed.always .ok ∧ s.sinkIn = Feed.always .ok ∧
        s.rxIn.queue = (blocks.flatMap wireBlock ++ [RxResponse.byte 0x04#8]).map some ++ rest :=
  ⟨{ held .hsNak with
      txIn := Feed.always .ok, sinkIn := Feed.always .ok
      rxIn := Feed.ofList (blocks.flatMap wireBlock ++ [RxResponse.byte 0x04#8]) },
    [], rfl, rfl, rfl, rfl, by simp [Feed.ofList]⟩

/-- A fresh handshake, and one already at the ceiling. -/
theorem witness_SilentSenderFailsTheHandshake :
    ∀ r : Byte, r.toNat ≤ 20 →
      ∃ s : State, s.quietHost ∧ s.state = .hsNak ∧ s.retry = r ∧ s.retry.toNat ≤ s.params.retryCeiling.val ∧
        s.txIn = Feed.always .ok ∧ s.rxIn = Feed.always .timeout :=
  fun r hr => ⟨{ held .hsNak with retry := r, txIn := Feed.always .ok, rxIn := Feed.always .timeout }, rfl, rfl, rfl, hr,
    rfl, rfl⟩

/-- A flood of varied stray bytes in each of the two states; and frames without end, the first with both checks good,
the second with neither. -/
theorem witness_EndlessInputNeverEnds :
    (∃ (s : State) (bytes : List Byte), s.quietHost ∧ (∀ b ∈ bytes, b ≠ 0x01#8 ∧ b ≠ 0x04#8) ∧ bytes.length = 3 ∧
      s.rxIn = Feed.endless (bytes.map .byte) ∧ s.state = .hsNak ∧ s.txIn = Feed.always .ok) ∧
    (∃ (s : State) (bytes : List Byte), s.quietHost ∧ (∀ b ∈ bytes, b ≠ 0x01#8 ∧ b ≠ 0x04#8) ∧ bytes.length = 3 ∧
      s.rxIn = Feed.endless (bytes.map .byte) ∧ s.state = .nextCtrl) ∧
    (∃ (s : State) (frames : List WireFrame), s.quietHost ∧ frames.map WireFrame.valid = [true, false] ∧
      s.rxIn = Feed.endless (frames.flatMap WireFrame.wire) ∧ s.state = .nextCtrl ∧ s.txIn = Feed.always .ok ∧
      s.sinkIn = Feed.always .ok) := by
  refine ⟨⟨{ held .hsNak with txIn := Feed.always .ok, rxIn := Feed.endless ([0x43#8, 0x00#8, 0xFF#8].map .byte) },
      [0x43#8, 0x00#8, 0xFF#8], rfl, by decide, rfl, rfl, rfl, rfl⟩,
    ⟨{ held .nextCtrl with rxIn := Feed.endless ([0x43#8, 0x00#8, 0xFF#8].map .byte) },
      [0x43#8, 0x00#8, 0xFF#8], rfl, by decide, rfl, rfl, rfl⟩,
    ⟨{ held .nextCtrl with
        txIn := Feed.always .ok, sinkIn := Feed.always .ok
        rxIn := Feed.endless (List.flatMap WireFrame.wire
          [⟨0x01#8, 0xFE#8, Vector.replicate blockSize 0x41#8, 0x80#8⟩,
            ⟨0x01#8, 0x01#8, Vector.replicate blockSize 0x41#8, 0x00#8⟩]) },
      [⟨0x01#8, 0xFE#8, Vector.replicate blockSize 0x41#8, 0x80#8⟩,
        ⟨0x01#8, 0x01#8, Vector.replicate blockSize 0x41#8, 0x00#8⟩], rfl, by decide +kernel, rfl, rfl, rfl, rfl⟩⟩

theorem witness_UnansweredReadIsStuck :
    ∃ s : State, s.quietHost ∧ s.request = some .rxRead ∧ s.rxIn = Feed.silent :=
  ⟨held .rxChecksum, rfl, rfl, rfl⟩

/-- A reset aborting the transaction that is outstanding in this step. -/
def aborting (c : Ctl) (r : Request) : State :=
  { held c with outstanding := some r, hostIn := [{ reset := true, start := false }] }

/-- Each clause's premises, with a step: the three aborts, a sink write of either answer, a transmitted byte of either
answer, a read byte and a timeout. -/
theorem witness_CollaboratorsHoldWhatWasAnswered :
    (∃ (s t : State) (p : Block), s.aborts (.sinkWrite p) ∧ step s = .next t) ∧
    (∃ (s t : State) (b : Byte), s.aborts (.txWrite b) ∧ step s = .next t) ∧
    (∃ s t : State, s.aborts .rxRead ∧ (∀ p : Block, ¬ s.aborts (.sinkWrite p)) ∧ step s = .next t) ∧
    (∀ r : SinkResponse, ∃ (s t : State) (f : Feed SinkResponse), s.proceeds ∧ s.state = .accWrite ∧
      s.sinkIn.pull = (some r, f) ∧ step s = .next t) ∧
    (∀ r : TxResponse, ∃ (s t : State) (b : Byte) (f : Feed TxResponse), s.proceeds ∧ s.request = some (.txWrite b) ∧
      s.txIn.pull = (some r, f) ∧ step s = .next t) ∧
    (∃ (s t : State) (b : Byte) (f : Feed RxResponse), s.proceeds ∧ s.request = some .rxRead ∧
      s.rxIn.pull = (some (.byte b), f) ∧ step s = .next t) ∧
    (∃ (s t : State) (f : Feed RxResponse), s.proceeds ∧ s.request = some .rxRead ∧
      s.rxIn.pull = (some .timeout, f) ∧ step s = .next t) := by
  have go : ∀ s : State, view (fun _ => true) (step s) = some true → ∃ t : State, step s = .next t := by
    intro s h
    obtain ⟨t, ht, -⟩ := next_of_view h
    exact ⟨t, ht⟩
  refine ⟨?_, ?_, ?_, fun r => ?_, fun r => ?_, ?_, ?_⟩
  · obtain ⟨t, ht⟩ := go (aborting .accWrite (.sinkWrite (Vector.replicate blockSize 0x41#8))) (by decide +kernel)
    exact ⟨_, t, _, ⟨rfl, rfl⟩, ht⟩
  · obtain ⟨t, ht⟩ := go (aborting .accAck (.txWrite 0x06#8)) (by decide +kernel)
    exact ⟨_, t, _, ⟨rfl, rfl⟩, ht⟩
  · obtain ⟨t, ht⟩ := go (aborting .hsRead .rxRead) (by decide +kernel)
    exact ⟨aborting .hsRead .rxRead, t, ⟨rfl, rfl⟩, (by rintro p ⟨-, h⟩; cases h), ht⟩
  · obtain ⟨t, ht⟩ := go { held .accWrite with sinkIn := Feed.ofList [r] } (by cases r <;> decide +kernel)
    exact ⟨_, t, Feed.ofList [], ⟨rfl, rfl⟩, rfl, rfl, ht⟩
  · obtain ⟨t, ht⟩ := go (writes .accAck r) (by cases r <;> decide +kernel)
    exact ⟨_, t, 0x06#8, Feed.ofList [], ⟨rfl, rfl⟩, rfl, rfl, ht⟩
  · obtain ⟨t, ht⟩ := go (reads .rxChecksum (.byte 0x80#8)) (by decide +kernel)
    exact ⟨_, t, _, Feed.ofList [], ⟨rfl, rfl⟩, rfl, rfl, ht⟩
  · obtain ⟨t, ht⟩ := go (reads .nextCtrl .timeout) (by decide +kernel)
    exact ⟨_, t, Feed.ofList [], ⟨rfl, rfl⟩, rfl, rfl, ht⟩

/-- The successes of the last clauses: a stored block and an acknowledged one. -/
theorem witness_CollaboratorsHoldWhatWasAnswered_all_ok :
    ∃ s : State, (∀ e ∈ s.sinkTrace, e.2 = .got .ok) ∧ (∀ e ∈ s.txLog, e.2 = .got .ok) ∧ s.sinkTrace.length = 1 ∧
      s.txLog.length = 1 :=
  ⟨{ held .nextCtrl with sinkTrace := [(Vector.replicate blockSize 0x41#8, .got .ok)], txLog := [(0x06#8, .got .ok)] },
    by simp, by simp, rfl, rfl⟩

end Sys2Proof.Tests
end

section
/-!
SUPPORT. What a step adds to the histories, and the ways it can fail; from these the statements of the scope rules
(`00_scope.md` R8, R13).
-/
namespace Sys2Proof.Machine

/-! ## At most one transaction -/

section
variable {s t h : State}

/-- What one step may add to the three histories (rule R61): nothing, or one entry in one of them. -/
inductive RecordsAtMostOne (s t : State) : Prop
  | nothing (hrx : t.rxLog = s.rxLog) (htx : t.txLog = s.txLog) (hsink : t.sinkTrace = s.sinkTrace)
  | read {e : Recorded RxResponse} (hrx : t.rxLog = s.rxLog ++ [e]) (htx : t.txLog = s.txLog)
      (hsink : t.sinkTrace = s.sinkTrace)
  | write {e : Byte × Recorded TxResponse} (hrx : t.rxLog = s.rxLog) (htx : t.txLog = s.txLog ++ [e])
      (hsink : t.sinkTrace = s.sinkTrace)
  | sink {e : Block × Recorded SinkResponse} (hrx : t.rxLog = s.rxLog) (htx : t.txLog = s.txLog)
      (hsink : t.sinkTrace = s.sinkTrace ++ [e])

@[simp] theorem State.txDone_rxLog (r : TxResponse) (c : Ctl) (s : State) : (s.txDone r c).rxLog = s.rxLog := by
  rcases txDone_cases r c s with ⟨-, h⟩ | ⟨-, h⟩ <;> simp [h]

@[simp] theorem State.txDone_txLog (r : TxResponse) (c : Ctl) (s : State) : (s.txDone r c).txLog = s.txLog := by
  rcases txDone_cases r c s with ⟨-, h⟩ | ⟨-, h⟩ <;> simp [h]

@[simp] theorem State.txDone_sinkTrace (r : TxResponse) (c : Ctl) (s : State) :
    (s.txDone r c).sinkTrace = s.sinkTrace := by
  rcases txDone_cases r c s with ⟨-, h⟩ | ⟨-, h⟩ <;> simp [h]

/-- A reset records the transaction it aborts, if one is outstanding (rule R201). -/
theorem hardReset_recordsAtMostOne (s : State) : RecordsAtMostOne s s.hardReset := by
  unfold State.hardReset State.dropOutstanding
  split
  · exact .nothing rfl rfl rfl
  · exact .read rfl rfl rfl
  · exact .write rfl rfl rfl
  · exact .sink rfl rfl rfl

theorem Works.recordsAtMostOne (hw : Works h t) : RecordsAtMostOne h t := by
  cases hw
  case rests | awaitsRead | awaitsWrite | awaitsSink | startsFrame | rejectsHeader | rejectsChecksum | accepts =>
    exact .nothing rfl rfl rfl
  case takesControl | strayProbe | probeTimeout | probeCeiling | readsNumber | readsComplement | readsData |
      readsLastData | readsChecksum | readFails | strayBetween =>
    exact .read rfl rfl rfl
  case acksBlock | ackFails => exact .write rfl rfl rfl
  case endsTransfer | probes | naksBlock =>
    exact .write (State.txDone_rxLog ..) (State.txDone_txLog ..) (State.txDone_sinkTrace ..)
  case stores | storeFails => exact .sink rfl rfl rfl

/-- The sample of the CTRL port is no part of a history. -/
theorem RecordsAtMostOne.of_hostTaken (hrec : RecordsAtMostOne s.hostTaken t) : RecordsAtMostOne s t := by
  cases hrec with
  | nothing hrx htx hsink => exact .nothing hrx htx hsink
  | read hrx htx hsink => exact .read hrx htx hsink
  | write hrx htx hsink => exact .write hrx htx hsink
  | sink hrx htx hsink => exact .sink hrx htx hsink

theorem step_recordsAtMostOne (hstep : step s = .next t) : RecordsAtMostOne s t := by
  obtain ⟨-, rfl⟩ | ⟨-, -, -, rfl⟩ | ⟨-, hw⟩ := step_next_cases hstep
  · exact (hardReset_recordsAtMostOne s.hostTaken).of_hostTaken
  · exact .nothing rfl rfl rfl
  · exact hw.recordsAtMostOne.of_hostTaken

end

/-- Settles O40: a step adds nothing to the histories or one entry to one of them. -/
theorem oneTransactionAtMostPerStep : Obligations.OneTransactionAtMostPerStep := by
  intro s t hstep
  cases step_recordsAtMostOne hstep with
  | nothing hrx htx hsink => simp [hrx, htx, hsink]
  | read hrx htx hsink => simp [hrx, htx, hsink]; omega
  | write hrx htx hsink => simp [hrx, htx, hsink]; omega
  | sink hrx htx hsink => simp [hrx, htx, hsink]; omega

/-! ## Failures -/

section
variable {s t h : State} {r : TxResponse} {c : Ctl}

/-- Every way the controller state's work can end the session in `FAILED`, by what raises the failure (rule R170). -/
inductive Fails (h : State) : State → Prop
  | ceiling {f : Feed RxResponse} (hs : h.state = .hsRead) :
      Fails h ({ { h with rxIn := f }.logRx .timeout with
        retry := BitVec.ofNat 8 (h.retry.toNat + 1) }.raise .handshakeTimeout)
  | read {r : FailReason} {f : Feed RxResponse} (hr : h.ReadFailure r) : Fails h ({ h with rxIn := f }.failRead r)
  | sink {f : Feed SinkResponse} (hs : h.state = .accWrite) :
      Fails h (({ h with sinkIn := f }.logSink h.buf .fail).raise .sinkWriteError)
  | write {b : Byte} {r : TxResponse} {f : Feed TxResponse} (hg : ({ h with txIn := f }.logTx b r).txGoesOn r = false)
      (hs : h.state = .hsNak ∨ h.state = .awaitCtrl ∨ h.state = .accAck ∨ h.state = .rejNak) :
      Fails h (({ h with txIn := f }.logTx b r).raise .txWriteError)

/-- A write ends the session only under `TX_FAIL_POLICY` = `Fatal` (rule R177). -/
theorem txFailPolicy_eq_fatal_of_not_goesOn (hg : s.txGoesOn r = false) : s.params.txFailPolicy = .fatal := by
  rw [txGoesOn_eq, Bool.or_eq_false_iff] at hg
  cases hp : s.params.txFailPolicy
  · simp [hp] at hg
  · rfl

theorem txDone_of_failed (hc : c ≠ .failed) (hf : (s.txDone r c).state = .failed) :
    s.txGoesOn r = false ∧ s.txDone r c = s.raise .txWriteError := by
  obtain ⟨-, he⟩ | hfail := txDone_cases r c s
  · exact absurd (by simpa [he] using hf) hc
  · exact hfail

theorem Works.fails (hw : Works h t) (hne : h.state ≠ .failed) (hf : t.state = .failed) : Fails h t := by
  cases hw
  case rests | awaitsRead | awaitsWrite | awaitsSink => exact absurd hf hne
  case takesControl | strayProbe | probeTimeout | startsFrame | readsNumber | readsComplement | readsData |
      readsLastData | readsChecksum | rejectsHeader | rejectsChecksum | accepts | stores | acksBlock |
      strayBetween =>
    cases hf
  case probeCeiling hs _ _ => exact .ceiling hs
  case readFails hr _ => exact .read hr
  case storeFails hs _ _ => exact .sink hs
  case ackFails hs _ hg => exact .write hg (by simp [hs])
  case endsTransfer hs _ _ | probes hs _ | naksBlock hs _ =>
    obtain ⟨hg, he⟩ := txDone_of_failed (by decide) hf
    exact he ▸ .write hg (by simp [hs])

theorem step_fails (hstep : step s = .next t) (hne : s.state ≠ .failed) (hf : t.state = .failed) :
    Fails s.hostTaken t := by
  obtain ⟨-, rfl⟩ | ⟨-, -, -, rfl⟩ | ⟨-, hw⟩ := step_next_cases hstep
  · cases hf
  · cases hf
  · exact hw.fails hne hf

/-- The reason is the one of the state the failure was met in (rule R170), and only the handshake's ceiling comes with
a write of `retry` (rule R102). -/
theorem Fails.reason_of_state (hf : Fails h t) :
    t.fail = .handshakeTimeout ∧ h.state = .hsRead ∧ t.retry = h.retry + 1 ∨
      t.retry = h.retry ∧
        (t.fail = .headerReadError ∧ h.state = .rxHeader ∨ t.fail = .dataReadError ∧ h.state = .rxPayload ∨
          t.fail = .checksumReadError ∧ h.state = .rxChecksum ∨ t.fail = .nextBlockTimeout ∧ h.state = .nextCtrl ∨
          t.fail = .sinkWriteError ∧ h.state = .accWrite ∨
          t.fail = .txWriteError ∧ h.params.txFailPolicy = .fatal ∧
            (h.state = .hsNak ∨ h.state = .awaitCtrl ∨ h.state = .accAck ∨ h.state = .rejNak)) := by
  cases hf
  case ceiling hs => exact .inl ⟨rfl, hs, by simp [BitVec.ofNat_add]⟩
  case read hr =>
    refine .inr ⟨rfl, ?_⟩
    rcases hr with ⟨hs, -, rfl⟩ | ⟨hs, -, rfl⟩ | ⟨hs, rfl⟩ | ⟨hs, rfl⟩ <;> simp [State.failRead, hs]
  case sink hs => exact .inr ⟨rfl, by simp [hs]⟩
  case write hg hs =>
    have hp : h.params.txFailPolicy = .fatal := txFailPolicy_eq_fatal_of_not_goesOn hg
    exact .inr ⟨rfl, by simp [hp, hs]⟩

/-- What `raise` writes beside the reason, and what it leaves (rules R13, R181). -/
theorem Fails.registers (hf : Fails h t) :
    t.idx = 0 ∧ t.event = .none ∧ t.expBlk = h.expBlk ∧ t.verdict = h.verdict ∧ t.ctrl = h.ctrl ∧
    t.hdrNum = h.hdrNum ∧ t.hdrCmp = h.hdrCmp ∧ t.buf = h.buf ∧ t.rxCk = h.rxCk ∧ t.held = h.held := by
  cases hf <;> exact ⟨rfl, rfl, rfl, rfl, rfl, rfl, rfl, rfl, rfl, rfl⟩

end

/-- Settles O42: the step is one of the ways to fail, and each has its reason and its frame. -/
theorem failuresArePreciseAndRecordTheReason : Obligations.FailuresArePreciseAndRecordTheReason := by
  intro s t hstep hne hf
  have hfails := step_fails hstep hne hf
  exact ⟨hfails.reason_of_state, hfails.registers⟩

/-! ## The decoded symbol -/

/-- Settles O25: a step comes to the outcome of its fetch, and a symbol's outcome is its row's meaning. -/
theorem stepRunsTheDecodedSymbol : Obligations.StepRunsTheDecodedSymbol := by
  intro s t c w i hfetch hdecode
  calc step s = (fetch s).outcome := step_eq_fetch_outcome s
    _ = runSymbol c w t := by rw [hfetch]; rfl
    _ = exec i t := runSymbol_ok hdecode t

end Sys2Proof.Machine
end

section
/-!
SUPPORT. What the invariants of rule R44 say in each controller state; from these, that every step keeps them.
-/
namespace Sys2Proof.Machine

section
variable {s t h : State}

/-- The states in which no block is being received: the invariants ask only that `idx` and `fail` are clear. -/
def Ctl.isBetweenBlocks : Ctl → Prop
  | .idle | .hsNak | .hsRead | .nextCtrl | .complete => True
  | _ => False

theorem inv_betweenBlocks (hs : t.state.isBetweenBlocks) : Inv t ↔ t.idx = 0 ∧ t.fail = .none := by
  constructor
  · intro hi
    have hne : t.state ≠ .failed := by rintro hc; simp [hc, Ctl.isBetweenBlocks] at hs
    refine ⟨hi.idxElsewhere ?_ ?_, by simpa [hne] using hi.failIff⟩ <;>
      (rintro hc; simp [hc, Ctl.isBetweenBlocks] at hs)
  · rintro ⟨hidx, hfail⟩
    cases hc : t.state <;> simp only [hc, Ctl.isBetweenBlocks] at hs <;>
      constructor <;> simp [hc, hidx, hfail, State.hasHdrNum, State.hasFrame, Ctl.isReserved]

theorem inv_failed (hs : t.state = .failed) : Inv t ↔ t.idx = 0 ∧ t.fail ≠ .none := by
  constructor
  · exact fun hi => ⟨hi.idxElsewhere (by simp [hs]) (by simp [hs]), hi.failIff.1 hs⟩
  · rintro ⟨hidx, hfail⟩
    constructor <;> simp [hs, hidx, hfail, State.hasHdrNum, State.hasFrame, Ctl.isReserved]

theorem inv_awaitCtrl (hs : t.state = .awaitCtrl) :
    Inv t ↔ t.held.ctrl = true ∧ isControlByte t.ctrl = true ∧ t.idx = 0 ∧ t.fail = .none := by
  rw [isControlByte_iff]
  constructor
  · intro hi
    obtain ⟨hheld, hctrl⟩ := hi.ctrlLegal hs
    exact ⟨hheld, hctrl, hi.idxElsewhere (by simp [hs]) (by simp [hs]), by simpa [hs] using hi.failIff⟩
  · rintro ⟨hheld, hctrl, hidx, hfail⟩
    constructor <;> simp [hs, hheld, hctrl, hidx, hfail, State.hasHdrNum, State.hasFrame, Ctl.isReserved]

theorem inv_rxHeader (hs : t.state = .rxHeader) :
    Inv t ↔ (t.idx = 0 ∨ t.idx = 1 ∧ t.held.hdrNum = true) ∧ t.fail = .none := by
  constructor
  · intro hi
    refine ⟨(hi.idxHeader hs).imp_right fun h1 => ⟨h1, hi.numHeld (.inl ⟨hs, ?_⟩)⟩, by simpa [hs] using hi.failIff⟩
    simp [h1]
  · rintro ⟨hidx | ⟨hidx, hnum⟩, hfail⟩ <;>
      constructor <;> simp [hs, hidx, hfail, State.hasHdrNum, State.hasFrame, Ctl.isReserved]
    exact hnum

theorem inv_rxPayload (hs : t.state = .rxPayload) :
    Inv t ↔ t.idx.toNat ≤ 127 ∧ t.fail = .none ∧ t.held.hdrNum = true ∧ t.held.hdrCmp = true ∧
      ∀ i : Fin blockSize, i.val < t.idx.toNat → t.held.buf[i] = true := by
  constructor
  · intro hi
    exact ⟨hi.idxPayload hs, by simpa [hs] using hi.failIff, hi.numHeld (by simp [State.hasHdrNum, hs]),
      hi.cmpHeld (.inl hs), hi.payloadHeld hs⟩
  · rintro ⟨hidx, hfail, hnum, hcmp, hbuf⟩
    refine ⟨?_, ?_, fun _ => hidx, ?_, ?_, fun _ => hnum, fun _ => hcmp, fun _ => hbuf, ?_, ?_, ?_, ?_, ?_⟩ <;>
      simp [hs, hfail, State.hasFrame, Ctl.isReserved]

theorem inv_rxChecksum (hs : t.state = .rxChecksum) :
    Inv t ↔ t.idx = 0 ∧ t.fail = .none ∧ t.held.hdrNum = true ∧ t.held.hdrCmp = true ∧ t.bufHolds := by
  constructor
  · intro hi
    exact ⟨hi.idxElsewhere (by simp [hs]) (by simp [hs]), by simpa [hs] using hi.failIff,
      hi.numHeld (by simp [State.hasHdrNum, hs]), hi.cmpHeld (.inr (.inl hs)), hi.bufHeld (.inl hs)⟩
  · rintro ⟨hidx, hfail, hnum, hcmp, hbuf⟩
    refine ⟨?_, ?_, ?_, fun _ _ => hidx, ?_, fun _ => hnum, fun _ => hcmp, ?_, fun _ => hbuf, ?_, ?_, ?_, ?_⟩ <;>
      simp [hs, hfail, State.hasFrame, Ctl.isReserved]

theorem inv_hasFrame (hs : t.hasFrame) :
    Inv t ↔ t.idx = 0 ∧ t.fail = .none ∧ t.held.hdrNum = true ∧ t.held.hdrCmp = true ∧ t.bufHolds ∧
      t.held.rxCk = true ∧ (t.state = .accWrite ∨ t.state = .accAck → t.verdict = .accept) ∧
      (t.state = .rejNak → t.verdict = .blockNumberMismatch ∨ t.verdict = .checksumError) := by
  have hstates : t.state ≠ .awaitCtrl ∧ t.state ≠ .rxHeader ∧ t.state ≠ .rxPayload ∧ t.state ≠ .failed ∧
      t.state.isReserved = false := by
    rcases hs with hs | hs | hs | hs <;> simp [hs, Ctl.isReserved]
  obtain ⟨hawait, hheader, hpayload, hne, hres⟩ := hstates
  constructor
  · intro hi
    exact ⟨hi.idxElsewhere hheader hpayload, by simpa [hne] using hi.failIff,
      hi.numHeld (.inr (.inr (.inr hs))), hi.cmpHeld (.inr (.inr hs)), hi.bufHeld (.inr hs), hi.rxCkHeld hs,
      hi.accepted, hi.rejected⟩
  · rintro ⟨hidx, hfail, hnum, hcmp, hbuf, hck, hacc, hrej⟩
    exact ⟨(absurd · hawait), (absurd · hheader), (absurd · hpayload), fun _ _ => hidx, by simp [hne, hfail],
      fun _ => hnum, fun _ => hcmp, (absurd · hpayload), fun _ => hbuf, fun _ => hck, hacc, hrej, hres⟩

/-- The invariants speak of `state`, `ctrl`, `idx`, `verdict`, `fail` and of which registers hold a value. -/
theorem Inv.congr (hi : Inv s) (hs : t.state = s.state) (hc : t.ctrl = s.ctrl) (hidx : t.idx = s.idx)
    (hv : t.verdict = s.verdict) (hf : t.fail = s.fail) (hh : t.held = s.held) : Inv t := by
  constructor <;> simp only [State.hasHdrNum, State.hasFrame, hs, hc, hidx, hv, hf, hh]
  · exact hi.ctrlLegal
  · exact hi.idxHeader
  · exact hi.idxPayload
  · exact hi.idxElsewhere
  · exact hi.failIff
  · exact hi.numHeld
  · exact hi.cmpHeld
  · exact hi.payloadHeld
  · exact hi.bufHeld
  · exact hi.rxCkHeld
  · exact hi.accepted
  · exact hi.rejected
  · exact hi.notReserved

/-- Only `FAILED` holds a failure reason (rule R44 item 3). -/
theorem Inv.fail_eq_none (hi : Inv s) (hne : s.state ≠ .failed) : s.fail = .none := by
  simpa [hne] using hi.failIff

/-- `raise` meets the invariants from wherever it is taken (rule R13). -/
theorem inv_raise {r : FailReason} (hr : r ≠ .none) : Inv (s.raise r) := (inv_failed rfl).2 ⟨rfl, hr⟩

theorem inv_hardReset (s : State) : Inv s.hardReset :=
  (inv_betweenBlocks (t := s.hardReset) trivial).2 ⟨rfl, rfl⟩

theorem inv_startSession (s : State) : Inv s.startSession :=
  (inv_betweenBlocks (t := s.startSession) trivial).2 ⟨rfl, rfl⟩

/-- A step to a state between blocks meets the invariants when `idx` and `fail` are clear. -/
theorem inv_advance {c : Ctl} (hc : c.isBetweenBlocks) (hidx : s.idx = 0) (hf : s.fail = .none) :
    Inv (s.advance c) := (inv_betweenBlocks hc).2 ⟨hidx, hf⟩

theorem inv_txDone {c : Ctl} {r : TxResponse} (hc : c.isBetweenBlocks) (hidx : s.idx = 0) (hf : s.fail = .none) :
    Inv (s.txDone r c) := by
  obtain ⟨-, h⟩ | ⟨-, h⟩ := txDone_cases r c s
  · exact h ▸ inv_advance hc hidx hf
  · exact h ▸ inv_raise (by decide)

theorem State.ReadFailure.reason_ne_none {r : FailReason} (hr : s.ReadFailure r) : r ≠ .none := by
  rcases hr with ⟨-, -, rfl⟩ | ⟨-, -, rfl⟩ | ⟨-, rfl⟩ | ⟨-, rfl⟩ <;> decide

/-- One byte more of the payload holds a value. -/
theorem held_setIfInBounds {v : Vector Bool blockSize} {n : Nat}
    (hv : ∀ i : Fin blockSize, i.val < n → v[i] = true) :
    ∀ i : Fin blockSize, i.val < n + 1 → (v.setIfInBounds n true)[i] = true := by
  intro i hlt
  rw [Fin.getElem_fin, Vector.getElem_setIfInBounds]
  split
  · rfl
  · exact hv i (by omega)

theorem Works.inv (hw : Works h t) (hi : Inv h) : Inv t := by
  cases hw
  case rests | awaitsRead | awaitsWrite | awaitsSink => exact hi.congr rfl rfl rfl rfl rfl rfl
  case probeCeiling => exact inv_raise (by decide)
  case readFails hr _ => exact inv_raise hr.reason_ne_none
  case storeFails => exact inv_raise (by decide)
  case ackFails => exact inv_raise (by decide)
  case strayProbe hs _ _ | probeTimeout hs _ _ | strayBetween hs _ _ =>
    obtain ⟨hidx, hf⟩ := (inv_betweenBlocks (by simp [hs, Ctl.isBetweenBlocks])).1 hi
    exact inv_advance trivial hidx hf
  case probes hs _ =>
    obtain ⟨hidx, hf⟩ := (inv_betweenBlocks (by simp [hs, Ctl.isBetweenBlocks])).1 hi
    exact inv_txDone trivial hidx hf
  case takesControl b f hs hb _ =>
    obtain ⟨hidx, hf⟩ := (inv_betweenBlocks (by rcases hs with hs | hs <;> simp [hs, Ctl.isBetweenBlocks])).1 hi
    exact (inv_awaitCtrl rfl).2 ⟨rfl, hb, hidx, hf⟩
  case startsFrame hs _ =>
    obtain ⟨-, -, -, hf⟩ := (inv_awaitCtrl hs).1 hi
    exact (inv_rxHeader rfl).2 ⟨.inl rfl, hf⟩
  case endsTransfer hs _ _ =>
    obtain ⟨-, -, hidx, hf⟩ := (inv_awaitCtrl hs).1 hi
    exact inv_txDone trivial hidx hf
  case readsNumber hs _ _ =>
    obtain ⟨-, hf⟩ := (inv_rxHeader hs).1 hi
    exact (inv_rxHeader rfl).2 ⟨.inr ⟨rfl, rfl⟩, hf⟩
  case readsComplement hs hidx _ =>
    obtain ⟨hidx' | ⟨-, hnum⟩, hf⟩ := (inv_rxHeader hs).1 hi
    · exact absurd (hidx'.symm.trans hidx) (by decide)
    · exact (inv_rxPayload rfl).2 ⟨by simp, hf, hnum, rfl, by simp⟩
  case readsData hs hlt _ =>
    obtain ⟨-, hf, hnum, hcmp, hbuf⟩ := (inv_rxPayload hs).1 hi
    have hsucc : (h.idx + 1).toNat = h.idx.toNat + 1 := BitVec.toNat_add_of_lt (by simp; omega)
    refine (inv_rxPayload rfl).2 ⟨?_, hf, hnum, hcmp, ?_⟩
    · show (h.idx + 1).toNat ≤ 127
      omega
    · exact fun i hlt => held_setIfInBounds hbuf i (hsucc ▸ hlt)
  case readsLastData hs hidx _ =>
    obtain ⟨-, hf, hnum, hcmp, hbuf⟩ := (inv_rxPayload hs).1 hi
    rw [show h.idx.toNat = 127 by simp [hidx]] at hbuf
    exact (inv_rxChecksum rfl).2 ⟨rfl, hf, hnum, hcmp, fun i => held_setIfInBounds hbuf i i.isLt⟩
  case readsChecksum hs _ =>
    obtain ⟨hidx, hf, hnum, hcmp, hbuf⟩ := (inv_rxChecksum hs).1 hi
    exact (inv_hasFrame (.inl rfl)).2 ⟨hidx, hf, hnum, hcmp, hbuf, rfl, by simp, by simp⟩
  case rejectsHeader hs _ _ | rejectsChecksum hs _ _ _ _ _ =>
    obtain ⟨hidx, hf, hnum, hcmp, hbuf, hck, -, -⟩ := (inv_hasFrame (.inl hs)).1 hi
    exact (inv_hasFrame (.inr (.inr (.inr rfl)))).2
      ⟨hidx, hf, hnum, hcmp, hbuf, hck, by simp [State.reject], by simp [State.reject]⟩
  case accepts hs _ _ _ _ _ =>
    obtain ⟨hidx, hf, hnum, hcmp, hbuf, hck, -, -⟩ := (inv_hasFrame (.inl hs)).1 hi
    exact (inv_hasFrame (.inr (.inl rfl))).2 ⟨hidx, hf, hnum, hcmp, hbuf, hck, fun _ => rfl, by simp⟩
  case stores hs _ _ =>
    obtain ⟨hidx, hf, hnum, hcmp, hbuf, hck, hacc, -⟩ := (inv_hasFrame (.inr (.inl hs))).1 hi
    exact (inv_hasFrame (.inr (.inr (.inl rfl)))).2
      ⟨hidx, hf, hnum, hcmp, hbuf, hck, fun _ => hacc (.inl hs), by simp⟩
  case acksBlock hs _ _ =>
    obtain ⟨hidx, hf, -⟩ := (inv_hasFrame (.inr (.inr (.inl hs)))).1 hi
    exact inv_advance trivial hidx hf
  case naksBlock hs _ =>
    obtain ⟨hidx, hf, -⟩ := (inv_hasFrame (.inr (.inr (.inr hs)))).1 hi
    exact inv_txDone trivial hidx hf

/-- The sample of the CTRL port is no part of a register. -/
theorem Inv.hostTaken (hi : Inv s) : Inv s.hostTaken := hi.congr rfl rfl rfl rfl rfl rfl

theorem step_inv (hstep : step s = .next t) (hi : Inv s) : Inv t := by
  obtain ⟨-, rfl⟩ | ⟨-, -, -, rfl⟩ | ⟨-, hw⟩ := step_next_cases hstep
  · exact inv_hardReset _
  · exact inv_startSession _
  · exact hw.inv hi.hostTaken

end

/-- Settles O46: each way of `Works` leads from the invariants of the state it runs in to those of the
state it enters. -/
theorem stepKeepsTheRegisterInvariants : Obligations.StepKeepsTheRegisterInvariants := by
  intro s t hi hstep
  exact step_inv hstep hi

end Sys2Proof.Machine
end

section
/-!
SUPPORT. What a step adds to the block on the wire, and what it records of the transaction its state issues.
-/
namespace Sys2Proof.Machine

/-! ## The frame as received -/

section
variable {s t h : State}

/-- What a step does to the block received so far (rule R83): it ends it, leaves it, or adds the byte just read. -/
inductive FollowsWire (h t : State) : Prop
  | ends (hwire : t.wireSoFar = [])
  | leaves (hwire : t.wireSoFar = h.wireSoFar) (hlog : t.rxLog = h.rxLog)
  | adds {b : Byte} (hwire : t.wireSoFar = h.wireSoFar ++ [b]) (hlog : t.rxLog = h.rxLog ++ [.got (.byte b)])

theorem FollowsWire.frameOnWire (hf : FollowsWire h t) (hh : FrameOnWire h) : FrameOnWire t := by
  unfold FrameOnWire at *
  cases hf with
  | ends hwire => simp [hwire]
  | leaves hwire hlog => rwa [hwire, hlog]
  | adds hwire hlog =>
    rw [hwire, hlog, List.map_append]
    exact List.suffix_append_inj_of_length_eq rfl |>.2 ⟨hh, rfl⟩

/-- The payload received so far grows by the byte written at its end. -/
theorem take_succ_setIfInBounds (p : Block) (b : Byte) {n : Nat} (hn : n < blockSize) :
    (p.setIfInBounds n b).toList.take (n + 1) = p.toList.take n ++ [b] := by
  have hlt : n < p.toList.length := by simpa using hn
  rw [Vector.toList_setIfInBounds, List.take_add_one, List.take_set_of_le (Nat.le_refl n), List.getElem?_set_self hlt]
  rfl

theorem followsWire_txDone (r : TxResponse) {c : Ctl} (hc : c = .complete ∨ c = .hsRead ∨ c = .nextCtrl) :
    FollowsWire h (s.txDone r c) := by
  refine .ends ?_
  obtain ⟨-, he⟩ | ⟨-, he⟩ := txDone_cases r c s <;> rw [he]
  · rcases hc with rfl | rfl | rfl <;> rfl
  · rfl

theorem Works.followsWire (hw : Works h t) : FollowsWire h t := by
  cases hw
  case rests | awaitsRead | awaitsWrite | awaitsSink => exact .leaves rfl rfl
  case strayProbe | probeTimeout | probeCeiling | readFails | storeFails | acksBlock | ackFails | strayBetween =>
    exact .ends rfl
  case probes | naksBlock | endsTransfer => exact followsWire_txDone _ (by simp)
  case takesControl b f hs hb hp =>
    exact .adds (b := b) (by rcases hs with hs | hs <;> simp [State.wireSoFar, hs, State.acceptCtrl]) rfl
  case startsFrame hs hc =>
    exact .leaves (by simp [State.wireSoFar, hs, (readCtrl_eq_some.1 hc).2]) rfl
  case readsNumber b f hs hidx hp => exact .adds (b := b) (by simp [State.wireSoFar, hs, hidx]) rfl
  case readsComplement b f hs hidx hp => exact .adds (b := b) (by simp [State.wireSoFar, hs, hidx]) rfl
  case readsData b f hs hlt hp =>
    have hsucc : (h.idx + 1).toNat = h.idx.toNat + 1 := BitVec.toNat_add_of_lt (by simp; omega)
    have htake := take_succ_setIfInBounds h.buf b (n := h.idx.toNat) (Nat.lt_trans hlt (by decide))
    refine .adds (b := b) ?_ rfl
    simp only [State.wireSoFar, hs]
    show _ ++ (h.buf.setIfInBounds h.idx.toNat b).toList.take (h.idx + 1).toNat = _
    rw [hsucc, htake, List.append_assoc]
    rfl
  case readsLastData b f hs hidx hp =>
    have htake := take_succ_setIfInBounds h.buf b (n := 127) (by simp)
    rw [List.take_of_length_le (by simp)] at htake
    exact .adds (b := b) (by simp [State.wireSoFar, hs, hidx, htake]) rfl
  case readsChecksum b f hs hp => exact .adds (b := b) (by simp [State.wireSoFar, hs]) rfl
  case rejectsHeader hs _ _ | rejectsChecksum hs _ _ _ _ _ | accepts hs _ _ _ _ _ | stores hs _ _ =>
    exact .leaves (by simp [State.wireSoFar, hs, State.reject]) rfl

theorem step_frameOnWire (hstep : step s = .next t) (hf : FrameOnWire s) : FrameOnWire t := by
  obtain ⟨-, rfl⟩ | ⟨-, -, -, rfl⟩ | ⟨-, hw⟩ := step_next_cases hstep
  · exact (FollowsWire.ends rfl).frameOnWire hf
  · exact (FollowsWire.ends rfl).frameOnWire hf
  · exact hw.followsWire.frameOnWire hf

end

/-- Settles O47: each byte read in a frame state goes to the end of the block received so far. -/
theorem stepKeepsTheFrameAsReceived : Obligations.StepKeepsTheFrameAsReceived := by
  intro s t _ hf hstep
  exact step_frameOnWire hstep hf

/-! ## The port discipline -/

section
variable {s t h : State}

theorem request_eq_rxRead_iff : s.request = some .rxRead ↔
    s.state = .hsRead ∨ s.state = .rxHeader ∨ s.state = .rxPayload ∨ s.state = .rxChecksum ∨ s.state = .nextCtrl := by
  cases hs : s.state <;> simp [State.request, hs]

theorem request_eq_txWrite_iff {b : Byte} : s.request = some (.txWrite b) ↔
    b = ack ∧ (s.state = .accAck ∨ s.state = .awaitCtrl ∧ s.ctrl = eot) ∨
      b = nak ∧ (s.state = .hsNak ∨ s.state = .rejNak) := by
  cases hs : s.state <;> simp [State.request, hs, eq_comm, and_comm]

theorem request_eq_sinkWrite_iff {p : Block} : s.request = some (.sinkWrite p) ↔ s.state = .accWrite ∧ p = s.buf := by
  cases hs : s.state <;> simp [State.request, hs, eq_comm]

/-- The one entry a step may add to the histories belongs to the request its state issues (rules R50 to R52). -/
inductive RecordsItsRequest (s t : State) : Prop
  | nothing (hrx : t.rxLog = s.rxLog) (htx : t.txLog = s.txLog) (hsink : t.sinkTrace = s.sinkTrace)
  | read {e : Recorded RxResponse} (hr : s.request = some .rxRead) (hrx : t.rxLog = s.rxLog ++ [e])
      (htx : t.txLog = s.txLog) (hsink : t.sinkTrace = s.sinkTrace)
  | write {b : Byte} {e : Recorded TxResponse} (hr : s.request = some (.txWrite b)) (hrx : t.rxLog = s.rxLog)
      (htx : t.txLog = s.txLog ++ [(b, e)]) (hsink : t.sinkTrace = s.sinkTrace)
  | sink {p : Block} {e : Recorded SinkResponse} (hr : s.request = some (.sinkWrite p)) (hrx : t.rxLog = s.rxLog)
      (htx : t.txLog = s.txLog) (hsink : t.sinkTrace = s.sinkTrace ++ [(p, e)])

/-- Where ports are legal, the transaction a reset drops is the state's own (rule R201). -/
theorem hardReset_recordsItsRequest (hp : PortsLegal s) : RecordsItsRequest s s.hardReset := by
  have hreq : ∀ r, s.outstanding = some r → s.request = some r := fun r ho =>
    hp.elim (fun hn => absurd (hn.symm.trans ho) nofun) (fun he => he.symm.trans ho)
  unfold State.hardReset State.dropOutstanding
  split
  · exact .nothing rfl rfl rfl
  · exact .read (hreq _ ‹_›) rfl rfl rfl
  · exact .write (hreq _ ‹_›) rfl rfl rfl
  · exact .sink (hreq _ ‹_›) rfl rfl rfl

theorem State.ReadFailure.request {r : FailReason} (hr : s.ReadFailure r) : s.request = some .rxRead := by
  rcases hr with ⟨hs, -⟩ | ⟨hs, -⟩ | ⟨hs, -⟩ | ⟨hs, -⟩ <;> simp [request_eq_rxRead_iff, hs]

theorem Works.recordsItsRequest (hw : Works h t) : RecordsItsRequest h t := by
  cases hw
  case rests | awaitsRead | awaitsWrite | awaitsSink | startsFrame | rejectsHeader | rejectsChecksum | accepts =>
    exact .nothing rfl rfl rfl
  case takesControl hs _ _ => exact .read (request_eq_rxRead_iff.2 (by tauto)) rfl rfl rfl
  case strayProbe hs _ _ | probeTimeout hs _ _ | probeCeiling hs _ _ | readsNumber hs _ _ | readsComplement hs _ _ |
      readsData hs _ _ | readsLastData hs _ _ | readsChecksum hs _ | strayBetween hs _ _ =>
    exact .read (request_eq_rxRead_iff.2 (by simp [hs])) rfl rfl rfl
  case readFails hr _ => exact .read hr.request rfl rfl rfl
  case acksBlock hs _ _ | ackFails hs _ _ => exact .write (request_eq_txWrite_iff.2 (by simp [hs])) rfl rfl rfl
  case endsTransfer hs hc _ =>
    have hctrl : h.ctrl = eot := (readCtrl_eq_some.1 hc).2
    exact .write (request_eq_txWrite_iff.2 (.inl ⟨rfl, .inr ⟨hs, hctrl⟩⟩)) (State.txDone_rxLog ..)
      (State.txDone_txLog ..) (State.txDone_sinkTrace ..)
  case probes hs _ | naksBlock hs _ =>
    exact .write (request_eq_txWrite_iff.2 (by simp [hs])) (State.txDone_rxLog ..) (State.txDone_txLog ..)
      (State.txDone_sinkTrace ..)
  case stores hs _ _ | storeFails hs _ _ => exact .sink (request_eq_sinkWrite_iff.2 ⟨hs, rfl⟩) rfl rfl rfl

/-- The sample of the CTRL port is no part of a request or a history. -/
theorem RecordsItsRequest.of_hostTaken (hrec : RecordsItsRequest s.hostTaken t) : RecordsItsRequest s t := by
  cases hrec with
  | nothing hrx htx hsink => exact .nothing hrx htx hsink
  | read hr hrx htx hsink => exact .read hr hrx htx hsink
  | write hr hrx htx hsink => exact .write hr hrx htx hsink
  | sink hr hrx htx hsink => exact .sink hr hrx htx hsink

theorem step_recordsItsRequest (hstep : step s = .next t) (hp : PortsLegal s) : RecordsItsRequest s t := by
  obtain ⟨-, rfl⟩ | ⟨-, -, -, rfl⟩ | ⟨-, hw⟩ := step_next_cases hstep
  · exact (hardReset_recordsItsRequest (s := s.hostTaken) hp).of_hostTaken
  · exact .nothing rfl rfl rfl
  · exact hw.recordsItsRequest.of_hostTaken

theorem RecordsItsRequest.onlyAckNak (hrec : RecordsItsRequest s t) (ho : OnlyAckNak s) : OnlyAckNak t := by
  unfold OnlyAckNak at *
  cases hrec with
  | nothing _ htx _ | read _ _ htx _ | sink _ _ htx _ => rwa [htx]
  | write hr _ htx _ =>
    have hbyte := (request_eq_txWrite_iff.1 hr).imp And.left And.left
    rw [htx]
    intro e he
    obtain he | rfl := List.mem_append.1 he |>.imp_right List.mem_singleton.1
    · exact ho e he
    · exact hbyte

theorem txDone_outstanding (r : TxResponse) (c : Ctl) (s : State) : (s.txDone r c).outstanding = none := by
  obtain ⟨-, he⟩ | ⟨-, he⟩ := txDone_cases r c s <;> rw [he] <;> rfl

/-- A step leaves a transaction outstanding only where it waits for the one its state issues (rule R67). -/
theorem Works.portsLegal (hw : Works h t) : PortsLegal t := by
  cases hw
  case awaitsRead hr _ => exact .inr hr.symm
  case awaitsWrite hr _ _ => exact .inr hr.symm
  case awaitsSink hs _ _ => exact .inr (request_eq_sinkWrite_iff.2 ⟨hs, rfl⟩).symm
  case endsTransfer | probes | naksBlock => exact .inl (txDone_outstanding ..)
  all_goals exact .inl rfl

theorem step_portsLegal (hstep : step s = .next t) : PortsLegal t := by
  obtain ⟨-, rfl⟩ | ⟨-, -, -, rfl⟩ | ⟨-, hw⟩ := step_next_cases hstep
  · exact .inl (dropOutstanding_outstanding _)
  · exact .inl rfl
  · exact hw.portsLegal

/-- `ACC_ACK` is entered only by a sink write of the buffer that answered `SinkOk` (rule R68). -/
theorem Works.sinkBeforeAck (hw : Works h t) (hb : SinkBeforeAck h) : SinkBeforeAck t := by
  intro hack
  cases hw
  case rests | awaitsRead | awaitsWrite | awaitsSink => exact hb hack
  case stores => exact List.getLast?_concat
  case endsTransfer r _ _ _ _ | probes r _ _ _ | naksBlock r _ _ _ =>
    obtain ⟨-, he⟩ | ⟨-, he⟩ := txDone_cases r _ _ <;> rw [he] at hack <;> cases hack
  all_goals cases hack

theorem step_sinkBeforeAck (hstep : step s = .next t) (hb : SinkBeforeAck s) : SinkBeforeAck t := by
  obtain ⟨-, rfl⟩ | ⟨-, -, -, rfl⟩ | ⟨-, hw⟩ := step_next_cases hstep
  · exact nofun
  · exact nofun
  · exact hw.sinkBeforeAck hb

end

/-- Settles O48: the one entry a step records is the state's own request, a wait leaves just that request outstanding,
and only the sink's `SinkOk` leads to `ACC_ACK`. -/
theorem stepKeepsThePortDiscipline : Obligations.StepKeepsThePortDiscipline := by
  intro s t hp ho hb hstep
  exact ⟨step_portsLegal hstep, (step_recordsItsRequest hstep hp).onlyAckNak ho, step_sinkBeforeAck hstep hb⟩

/-- Settles O39: what a step records of a read or a sink write belongs to the request of its state. -/
theorem readsAndSinkWritesHappenInTheirStates : Obligations.ReadsAndSinkWritesHappenInTheirStates := by
  intro s t hp hstep
  cases step_recordsItsRequest hstep hp with
  | nothing hrx _ hsink | write _ hrx _ hsink => exact ⟨.inl hrx, .inl hsink⟩
  | read hr hrx _ hsink => exact ⟨.inr ⟨⟨_, hrx⟩, request_eq_rxRead_iff.1 hr⟩, .inl hsink⟩
  | sink hr hrx _ hsink =>
    obtain ⟨hs, rfl⟩ := request_eq_sinkWrite_iff.1 hr
    exact ⟨.inl hrx, .inr ⟨hs, _, hsink⟩⟩

end Sys2Proof.Machine
end

section
/-!
SUPPORT. Where each register is written (rules R43, R47), the host's view of them (R54), and the bound of `retry` (R35).
-/
namespace Sys2Proof.Machine

/-! ## The STATUS vector -/

/-- Settles O36: each field is what is appended at its offset. -/
theorem statusLaysOutTheRegisters : Obligations.StatusLaysOutTheRegisters := by
  intro s
  have hdone : s.done = true ↔ s.state = .complete ∨ s.state = .failed := by
    cases hs : s.state <;> simp [State.done, Ctl.isTerminal, hs]
  unfold State.status
  rw [BitVec.setWidth_eq]
  refine ⟨?_, ?_, ?_, ?_, ?_, ?_, ?_⟩
  case refine_3 =>
    simpa only [BitVec.getLsbD_append, Nat.reduceLT, Nat.reduceSub, ↓reduceIte, BitVec.getLsbD_ofBool, decide_true,
      Bool.true_and] using hdone
  all_goals
    simp only [BitVec.extractLsb'_append_eq_of_le, BitVec.extractLsb'_append_eq_right, Nat.reduceLeDiff, Nat.reduceSub]
  case refine_7 => exact BitVec.extractLsb'_eq_self

/-! ## Where each register is written -/

section
variable {s t h : State} {r : TxResponse} {c : Ctl}

@[simp] theorem State.txDone_params : (s.txDone r c).params = s.params := by
  unfold State.txDone; split <;> rfl

@[simp] theorem State.txDone_ctrl : (s.txDone r c).ctrl = s.ctrl := by
  unfold State.txDone; split <;> rfl

@[simp] theorem State.txDone_expBlk : (s.txDone r c).expBlk = s.expBlk := by
  unfold State.txDone; split <;> rfl

@[simp] theorem State.txDone_retry : (s.txDone r c).retry = s.retry := by
  unfold State.txDone; split <;> rfl

@[simp] theorem State.txDone_hdrNum : (s.txDone r c).hdrNum = s.hdrNum := by
  unfold State.txDone; split <;> rfl

@[simp] theorem State.txDone_hdrCmp : (s.txDone r c).hdrCmp = s.hdrCmp := by
  unfold State.txDone; split <;> rfl

@[simp] theorem State.txDone_buf : (s.txDone r c).buf = s.buf := by
  unfold State.txDone; split <;> rfl

@[simp] theorem State.txDone_rxCk : (s.txDone r c).rxCk = s.rxCk := by
  unfold State.txDone; split <;> rfl

@[simp] theorem State.txDone_verdict : (s.txDone r c).verdict = s.verdict := by
  unfold State.txDone; split <;> rfl

@[simp] theorem State.txDone_event : (s.txDone r c).event = .none := by
  unfold State.txDone; split <;> rfl

theorem Works.params_eq (hw : Works h t) : t.params = h.params := by
  cases hw
  case endsTransfer | probes | naksBlock => exact State.txDone_params
  all_goals rfl

theorem Works.state_of_expBlk_ne (hw : Works h t) (hne : t.expBlk ≠ h.expBlk) : h.state = .accAck := by
  cases hw
  case acksBlock hs _ _ => exact hs
  case endsTransfer | probes | naksBlock => exact absurd State.txDone_expBlk hne
  all_goals exact absurd rfl hne

theorem Works.state_of_retry_ne (hw : Works h t) (hne : t.retry ≠ h.retry) :
    h.state = .hsRead ∧ ∃ f : Feed RxResponse, h.rxIn.pull = (some .timeout, f) := by
  cases hw
  case probeTimeout hs hp _ | probeCeiling hs hp _ => exact ⟨hs, _, hp⟩
  case endsTransfer | probes | naksBlock => exact absurd State.txDone_retry hne
  all_goals exact absurd rfl hne

theorem Works.state_of_verdict_ne (hw : Works h t) (hne : t.verdict ≠ h.verdict) : h.state = .validating := by
  cases hw
  case rejectsHeader hs _ _ | rejectsChecksum hs _ _ _ _ _ | accepts hs _ _ _ _ _ => exact hs
  case endsTransfer | probes | naksBlock => exact absurd State.txDone_verdict hne
  all_goals exact absurd rfl hne

theorem Works.state_of_ctrl_ne (hw : Works h t) (hne : t.ctrl ≠ h.ctrl) :
    (h.state = .hsRead ∨ h.state = .nextCtrl) ∧ isControlByte t.ctrl = true := by
  cases hw
  case takesControl hs hb _ => exact ⟨hs, hb⟩
  case endsTransfer | probes | naksBlock => exact absurd State.txDone_ctrl hne
  all_goals exact absurd rfl hne

theorem Works.state_of_hdrNum_ne (hw : Works h t) (hne : t.hdrNum ≠ h.hdrNum) : h.state = .rxHeader ∧ h.idx = 0 := by
  cases hw
  case readsNumber hs hidx _ => exact ⟨hs, hidx⟩
  case endsTransfer | probes | naksBlock => exact absurd State.txDone_hdrNum hne
  all_goals exact absurd rfl hne

theorem Works.state_of_hdrCmp_ne (hw : Works h t) (hne : t.hdrCmp ≠ h.hdrCmp) : h.state = .rxHeader ∧ h.idx = 1 := by
  cases hw
  case readsComplement hs hidx _ => exact ⟨hs, hidx⟩
  case endsTransfer | probes | naksBlock => exact absurd State.txDone_hdrCmp hne
  all_goals exact absurd rfl hne

theorem Works.state_of_buf_ne {i : Fin blockSize} (hw : Works h t) (hne : t.buf[i] ≠ h.buf[i]) :
    h.state = .rxPayload ∧ h.idx.toNat = i.val := by
  have hindex : ∀ {n : Nat} {b : Byte}, (h.buf.setIfInBounds n b)[i] ≠ h.buf[i] → n = i.val := fun hset =>
    by_contra fun hn => hset (Vector.getElem_setIfInBounds_ne i.isLt hn)
  cases hw
  case readsData hs _ _ => exact ⟨hs, hindex hne⟩
  case readsLastData hs hidx _ => exact ⟨hs, by rw [hidx]; exact hindex hne⟩
  case endsTransfer | probes | naksBlock => exact absurd (congrArg (·[i]) State.txDone_buf) hne
  all_goals exact absurd rfl hne

theorem Works.state_of_rxCk_ne (hw : Works h t) (hne : t.rxCk ≠ h.rxCk) : h.state = .rxChecksum := by
  cases hw
  case readsChecksum hs _ => exact hs
  case endsTransfer | probes | naksBlock => exact absurd State.txDone_rxCk hne
  all_goals exact absurd rfl hne

/-- A write's end leaves `idx` and `fail`, or it is a failure. -/
theorem txDone_idx_fail (r : TxResponse) (c : Ctl) (s : State) :
    ((s.txDone r c).idx = s.idx ∧ (s.txDone r c).fail = s.fail) ∨ (s.txDone r c).state = .failed := by
  obtain ⟨-, he⟩ | ⟨-, he⟩ := txDone_cases r c s <;> simp [he]

theorem Works.state_of_idx_ne (hw : Works h t) (hne : t.idx ≠ h.idx) :
    h.state = .rxHeader ∨ h.state = .rxPayload ∨ t.state = .rxHeader ∨ t.state = .failed := by
  cases hw
  case readsComplement hs _ _ => exact .inl hs
  case readsData hs _ _ | readsLastData hs _ _ => exact .inr (.inl hs)
  case startsFrame | readsNumber => exact .inr (.inr (.inl rfl))
  case probeCeiling | readFails | storeFails | ackFails => exact .inr (.inr (.inr rfl))
  case endsTransfer r _ _ _ _ | probes r _ _ _ | naksBlock r _ _ _ =>
    obtain ⟨he, -⟩ | hf := txDone_idx_fail r _ _
    · exact absurd he hne
    · exact .inr (.inr (.inr hf))
  all_goals exact absurd rfl hne

theorem Works.state_of_fail_ne (hw : Works h t) (hne : t.fail ≠ h.fail) : t.state = .failed := by
  cases hw
  case probeCeiling | readFails | storeFails | ackFails => rfl
  case endsTransfer r _ _ _ _ | probes r _ _ _ | naksBlock r _ _ _ =>
    obtain ⟨-, he⟩ | hf := txDone_idx_fail r _ _
    · exact absurd he hne
    · exact hf
  all_goals exact absurd rfl hne

/-- With the CTRL port leaving the step to the controller state, what was done is one of the state's works. -/
theorem works_of_step (hq : s.proceeds) (hstep : step s = .next t) : Works s.hostTaken t :=
  works_of_fetchByState (step_of_proceeds hq ▸ hstep)

/-- The parameters are fixed for a run (rule R206). -/
theorem step_params (hstep : step s = .next t) : t.params = s.params := by
  obtain ⟨-, rfl⟩ | ⟨-, -, -, rfl⟩ | ⟨-, hw⟩ := step_next_cases hstep
  · exact dropOutstanding_params _
  · rfl
  · exact hw.params_eq

end

/-- Settles O37: register by register, from the one or two ways of `Works` that write it. -/
theorem registersAreWrittenOnlyByTheirRules : Obligations.RegistersAreWrittenOnlyByTheirRules := by
  intro s t hstep
  refine ⟨step_params hstep, fun hq => ?_⟩
  have hw := works_of_step hq hstep
  exact ⟨hw.state_of_expBlk_ne, hw.state_of_retry_ne, hw.state_of_verdict_ne,
    fun hne => (hw.state_of_ctrl_ne hne).imp_right (isControlByte_iff _).1, hw.state_of_hdrNum_ne,
    hw.state_of_hdrCmp_ne, fun _ => hw.state_of_buf_ne, hw.state_of_rxCk_ne, hw.state_of_idx_ne, hw.state_of_fail_ne⟩

/-- An event is driven by a rejection, or held by a wait. -/
theorem Works.event_cases {h t : State} (hw : Works h t) (hne : t.event ≠ .none) :
    (h.state = .validating ∧ t.state = .rejNak ∧
      (t.event = .blockNumberMismatch ∧ t.verdict = .blockNumberMismatch ∨
        t.event = .checksumError ∧ t.verdict = .checksumError)) ∨
    (t.outstanding ≠ none ∧ t.state = h.state ∧ t.event = h.event) := by
  cases hw
  case rejectsHeader hs _ _ => exact .inl ⟨hs, rfl, .inl ⟨rfl, rfl⟩⟩
  case rejectsChecksum hs _ _ _ _ _ => exact .inl ⟨hs, rfl, .inr ⟨rfl, rfl⟩⟩
  case awaitsRead | awaitsWrite | awaitsSink => exact .inr ⟨nofun, rfl, rfl⟩
  case endsTransfer | probes | naksBlock => exact absurd State.txDone_event hne
  all_goals exact absurd rfl hne

/-- Settles O43: reset and `start` end an event, and the controller's works drive it only on a rejection. -/
theorem eventIsDrivenForOneStep : Obligations.EventIsDrivenForOneStep := by
  intro s t hstep hne
  obtain ⟨-, rfl⟩ | ⟨-, -, -, rfl⟩ | ⟨-, hw⟩ := step_next_cases hstep
  · exact absurd rfl hne
  · exact absurd rfl hne
  · exact hw.event_cases hne

/-! ## The bound of `retry` -/

section
variable {s t h : State}

/-- From `FAILED` the controller only rests (rule R181). -/
theorem Works.eq_advance_of_failed (hw : Works h t) (hs : h.state = .failed) : t = h.advance .failed := by
  have hfetch := fetchByState_of_works hw
  simp only [State.fetchByState, hs, Fetched.outcome] at hfetch
  cases hfetch
  rfl

theorem Works.retryBounded (hw : Works h t) (hi : Inv h) (hb : RetryBounded h) : RetryBounded t := by
  by_cases hfailed : h.state = .failed
  · rw [hw.eq_advance_of_failed hfailed]
    exact hb
  have hbound : h.retry.toNat ≤ h.params.retryCeiling.val :=
    hb.resolve_right fun ⟨hf, _⟩ => absurd ((hi.fail_eq_none hfailed).symm.trans hf) nofun
  have hceiling : h.params.retryCeiling.val < 255 := h.params.retryCeiling.isLt
  have hcount : (BitVec.ofNat 8 (h.retry.toNat + 1)).toNat = h.retry.toNat + 1 := by
    rw [BitVec.toNat_ofNat, Nat.mod_eq_of_lt (by omega)]
  cases hw
  case probeTimeout hc => exact .inl (hcount.trans_le hc)
  case probeCeiling hc =>
    have hexceeds : h.retry.toNat + 1 = h.params.retryCeiling.val + 1 := by omega
    exact .inr ⟨rfl, hcount.trans hexceeds⟩
  case endsTransfer | probes | naksBlock => exact .inl (by simpa using hbound)
  all_goals exact .inl hbound

theorem step_retryBounded (hstep : step s = .next t) (hi : Inv s) (hb : RetryBounded s) : RetryBounded t := by
  obtain ⟨-, rfl⟩ | ⟨-, -, -, rfl⟩ | ⟨-, hw⟩ := step_next_cases hstep
  · exact .inl (Nat.zero_le _)
  · exact .inl (Nat.zero_le _)
  · exact hw.retryBounded hi.hostTaken hb

end

/-- Settles O51: only the handshake's timeouts raise `retry`, and the first above the ceiling ends in `FAILED`, where
the controller rests. -/
theorem stepKeepsTheRetryBound : Obligations.StepKeepsTheRetryBound := by
  intro s t hi hb hstep
  exact step_retryBounded hstep hi hb

end Sys2Proof.Machine
end

section
/-!
SUPPORT. From a state of the invariants every step answers a next state.
-/
namespace Sys2Proof.Machine

section
variable {s t h : State}

/-- A state that reads has work to do when each response gives it some; without a response it waits. -/
theorem exists_works_of_read (hr : h.request = some .rxRead)
    (hwork : ∀ r f, h.rxIn.pull = (some r, f) → ∃ t, Works h t) : ∃ t, Works h t :=
  match hp : h.rxIn.pull with
  | (none, _) => ⟨_, .awaitsRead hr hp⟩
  | (some r, f) => hwork r f hp

theorem exists_works_of_write {b : Byte} (hr : h.request = some (.txWrite b))
    (hc : h.state = .awaitCtrl → h.readCtrl = some eot)
    (hwork : ∀ r f, h.txIn.pull = (some r, f) → ∃ t, Works h t) : ∃ t, Works h t :=
  match hp : h.txIn.pull with
  | (none, _) => ⟨_, .awaitsWrite hr hc hp⟩
  | (some r, f) => hwork r f hp

theorem exists_works_hsRead (hs : h.state = .hsRead) : ∃ t, Works h t := by
  refine exists_works_of_read (request_eq_rxRead_iff.2 (.inl hs)) fun r f hp => ?_
  cases r with
  | timeout =>
    rcases Nat.lt_or_ge h.params.retryCeiling.val (h.retry.toNat + 1) with hc | hc
    · exact ⟨_, .probeCeiling hs hp hc⟩
    · exact ⟨_, .probeTimeout hs hp hc⟩
  | byte b =>
    cases hb : isControlByte b
    · exact ⟨_, .strayProbe hs hb hp⟩
    · exact ⟨_, .takesControl (.inl hs) hb hp⟩

theorem exists_works_nextCtrl (hs : h.state = .nextCtrl) : ∃ t, Works h t := by
  refine exists_works_of_read (request_eq_rxRead_iff.2 (by simp [hs])) fun r f hp => ?_
  cases r with
  | timeout => exact ⟨_, .readFails (.inr (.inr (.inr ⟨hs, rfl⟩))) hp⟩
  | byte b =>
    cases hb : isControlByte b
    · exact ⟨_, .strayBetween hs hb hp⟩
    · exact ⟨_, .takesControl (.inr hs) hb hp⟩

theorem exists_works_awaitCtrl (hi : Inv h) (hs : h.state = .awaitCtrl) : ∃ t, Works h t := by
  obtain ⟨hheld, hctrl | hctrl⟩ := hi.ctrlLegal hs
  · exact ⟨_, .startsFrame hs (readCtrl_eq_some.2 ⟨hheld, hctrl⟩)⟩
  · have hc : h.readCtrl = some eot := readCtrl_eq_some.2 ⟨hheld, hctrl⟩
    exact exists_works_of_write (request_eq_txWrite_iff.2 (.inl ⟨rfl, .inr ⟨hs, hctrl⟩⟩)) (fun _ => hc)
      fun _ _ hp => ⟨_, .endsTransfer hs hc hp⟩

theorem exists_works_rxHeader (hi : Inv h) (hs : h.state = .rxHeader) : ∃ t, Works h t := by
  have hidx := hi.idxHeader hs
  refine exists_works_of_read (request_eq_rxRead_iff.2 (by simp [hs])) fun r f hp => ?_
  cases r with
  | timeout => exact ⟨_, .readFails (.inl ⟨hs, by rcases hidx with hidx | hidx <;> simp [hidx], rfl⟩) hp⟩
  | byte b =>
    rcases hidx with hidx | hidx
    · exact ⟨_, .readsNumber hs hidx hp⟩
    · exact ⟨_, .readsComplement hs hidx hp⟩

theorem exists_works_rxPayload (hi : Inv h) (hs : h.state = .rxPayload) : ∃ t, Works h t := by
  have hidx := hi.idxPayload hs
  refine exists_works_of_read (request_eq_rxRead_iff.2 (by simp [hs])) fun r f hp => ?_
  cases r with
  | timeout => exact ⟨_, .readFails (.inr (.inl ⟨hs, Nat.lt_succ_of_le hidx, rfl⟩)) hp⟩
  | byte b =>
    rcases Nat.lt_or_eq_of_le hidx with hlt | hlast
    · exact ⟨_, .readsData hs hlt hp⟩
    · exact ⟨_, .readsLastData hs (BitVec.eq_of_toNat_eq hlast) hp⟩

theorem exists_works_rxChecksum (hs : h.state = .rxChecksum) : ∃ t, Works h t := by
  refine exists_works_of_read (request_eq_rxRead_iff.2 (by simp [hs])) fun r f hp => ?_
  cases r with
  | timeout => exact ⟨_, .readFails (.inr (.inr (.inl ⟨hs, rfl⟩))) hp⟩
  | byte b => exact ⟨_, .readsChecksum hs hp⟩

/-- Every register the validator reads holds a value (rule R44 item 4). -/
theorem exists_works_validating (hi : Inv h) (hs : h.state = .validating) : ∃ t, Works h t := by
  obtain ⟨-, -, hnum, hcmp, hbuf, hck, -, -⟩ := (inv_hasFrame (.inl hs)).1 hi
  have hh : h.readHeader = some (h.hdrNum, h.hdrCmp) := readHeader_eq_some.2 ⟨hnum, hcmp, rfl, rfl⟩
  have hb : h.readBuf = some h.buf := readBuf_eq_some.2 ⟨hbuf, rfl⟩
  have hk : h.readRxCk = some h.rxCk := readRxCk_eq_some.2 ⟨hck, rfl⟩
  cases hok : hdrOk h.hdrNum h.hdrCmp
  · exact ⟨_, .rejectsHeader hs hh hok⟩
  · cases hsum : ckOk h.buf h.rxCk
    · exact ⟨_, .rejectsChecksum hs hh hok hb hk hsum⟩
    · exact ⟨_, .accepts hs hh hok hb hk hsum⟩

theorem exists_works_accWrite (hi : Inv h) (hs : h.state = .accWrite) : ∃ t, Works h t := by
  have hb : h.readBuf = some h.buf := readBuf_eq_some.2 ⟨hi.bufHeld (.inr (.inr (.inl hs))), rfl⟩
  match hp : h.sinkIn.pull with
  | (none, _) => exact ⟨_, .awaitsSink hs hb hp⟩
  | (some .ok, _) => exact ⟨_, .stores hs hb hp⟩
  | (some .fail, _) => exact ⟨_, .storeFails hs hb hp⟩

theorem exists_works_accAck (hs : h.state = .accAck) : ∃ t, Works h t := by
  refine exists_works_of_write (request_eq_txWrite_iff.2 (.inl ⟨rfl, .inl hs⟩)) (by simp [hs]) fun r f hp => ?_
  cases hg : h.txGoesOn r
  · exact ⟨_, .ackFails hs hp hg⟩
  · exact ⟨_, .acksBlock hs hp hg⟩

theorem exists_works_hsNak (hs : h.state = .hsNak) : ∃ t, Works h t :=
  exists_works_of_write (request_eq_txWrite_iff.2 (.inr ⟨rfl, .inl hs⟩)) (by simp [hs])
    fun _ _ hp => ⟨_, .probes hs hp⟩

theorem exists_works_rejNak (hs : h.state = .rejNak) : ∃ t, Works h t :=
  exists_works_of_write (request_eq_txWrite_iff.2 (.inr ⟨rfl, .inr hs⟩)) (by simp [hs])
    fun _ _ hp => ⟨_, .naksBlock hs hp⟩

/-- Where the invariants hold the controller state always has work to do. -/
theorem Inv.exists_works (hi : Inv h) : ∃ t, Works h t := by
  cases hs : h.state
  case idle => exact ⟨_, .rests (.inl hs)⟩
  case complete => exact ⟨_, .rests (.inr (.inl hs))⟩
  case failed => exact ⟨_, .rests (.inr (.inr hs))⟩
  case hsNak => exact exists_works_hsNak hs
  case hsRead => exact exists_works_hsRead hs
  case awaitCtrl => exact exists_works_awaitCtrl hi hs
  case rxHeader => exact exists_works_rxHeader hi hs
  case rxPayload => exact exists_works_rxPayload hi hs
  case rxChecksum => exact exists_works_rxChecksum hs
  case validating => exact exists_works_validating hi hs
  case accWrite => exact exists_works_accWrite hi hs
  case accAck => exact exists_works_accAck hs
  case rejNak => exact exists_works_rejNak hs
  case nextCtrl => exact exists_works_nextCtrl hs
  case reserved14 | reserved15 => exact absurd hi.notReserved (by simp [hs, Ctl.isReserved])

theorem step_of_reset (hr : s.hostSample.reset = true) : step s = .next s.hostTaken.hardReset := by
  rw [step_eq_fetch_outcome, fetch, if_pos hr]
  rfl

theorem step_of_start (hr : s.hostSample.reset = false) (hst : (s.hostSample.start && s.state.takesStart) = true) :
    step s = .next s.hostTaken.startSession := by
  rw [step_eq_fetch_outcome, fetch, if_neg (by simp [hr]), if_pos hst]
  rfl

theorem Inv.exists_step (hi : Inv s) : ∃ t, step s = .next t := by
  cases hr : s.hostSample.reset
  · cases hst : s.hostSample.start && s.state.takesStart
    · exact hi.hostTaken.exists_works.imp fun _ => step_of_works ⟨hr, hst⟩
    · exact ⟨_, step_of_start hr hst⟩
  · exact ⟨_, step_of_reset hr⟩

end

/-- Settles O52: a step of the invariants answers a next state, which meets them again. -/
theorem invariantRunsNeverStop : Obligations.InvariantRunsNeverStop := by
  intro s hi n
  induction n generalizing s with
  | zero => exact ⟨s, run_zero s⟩
  | succ n ih =>
    obtain ⟨u, hstep⟩ := hi.exists_step
    rw [run_succ_of_step hstep]
    exact ih u (step_inv hstep hi)

end Sys2Proof.Machine
end

section
/-!
SUPPORT. What a step fetches in each state and after the placing of an instruction, and the reset state.
-/
namespace Sys2Proof.Machine

/-! ## The fetched symbol -/

section
variable {s : State}

theorem fetch_of_proceeds (hq : s.proceeds) : fetch s = s.hostTaken.fetchByState := by
  unfold fetch
  rw [if_neg (by simp [hq.1]), if_neg (by simp [hq.2])]

theorem fetchRx_of_response {c : Context} {r : RxResponse} {f : Feed RxResponse} (hp : s.rxIn.pull = (some r, f)) :
    fetchRx c s = .symbol c r.word { s with rxIn := f } := by
  unfold fetchRx
  rw [hp]

/-- A reading state decodes the channel's response in its own context (rules R50, R93). -/
theorem fetch_of_response {r : RxResponse} {f : Feed RxResponse} (hq : s.proceeds) (hp : s.rxIn.pull = (some r, f)) :
    (s.state = .hsRead → fetch s = .symbol .hs r.word { s with hostIn := s.hostIn.tail, rxIn := f }) ∧
    (s.state = .rxHeader → fetch s = .symbol .frHdr r.word { s with hostIn := s.hostIn.tail, rxIn := f }) ∧
    (s.state = .rxPayload → fetch s = .symbol .frData r.word { s with hostIn := s.hostIn.tail, rxIn := f }) ∧
    (s.state = .rxChecksum → fetch s = .symbol .frCksum r.word { s with hostIn := s.hostIn.tail, rxIn := f }) ∧
    (s.state = .nextCtrl → fetch s = .symbol .nc r.word { s with hostIn := s.hostIn.tail, rxIn := f }) := by
  have hrx : ∀ c, fetchRx c s.hostTaken = .symbol c r.word { s.hostTaken with rxIn := f } := fun _ =>
    fetchRx_of_response hp
  rw [fetch_of_proceeds hq]
  refine ⟨?_, ?_, ?_, ?_, ?_⟩ <;>
    (intro hs; simp only [State.fetchByState, State.hostTaken_state, hs, hrx]; rfl)

end

/-- Settles O26: the reading states by the channel's response, the others by what they dispatch on or put on a port. -/
theorem eachStateFetchesItsSymbol : Obligations.EachStateFetchesItsSymbol := by
  intro s hq
  refine ⟨fun b f hp => fetch_of_response hq hp, fun f hp => fetch_of_response hq hp, ?_, ?_, ?_, ?_⟩ <;>
    rw [fetch_of_proceeds hq]
  · intro hs hheld
    have hc : s.hostTaken.readCtrl = some s.ctrl := readCtrl_eq_some.2 ⟨hheld, rfl⟩
    show _ = Fetched.symbol .ac [s.ctrl] s.hostTaken
    simp only [State.fetchByState, State.hostTaken_state, hs, hc]
  · show _ → _ = Fetched.symbol .tx [nak] s.hostTaken
    rintro (hs | hs) <;> simp only [State.fetchByState, State.hostTaken_state, hs]
  · intro hs
    show _ = Fetched.symbol .tx [ack] s.hostTaken
    simp only [State.fetchByState, State.hostTaken_state, hs]
  · intro hs hbuf
    have hb : s.hostTaken.readBuf = some s.buf := readBuf_eq_some.2 ⟨hbuf, rfl⟩
    show _ = Fetched.symbol .sk s.buf.toList s.hostTaken
    simp only [State.fetchByState, State.hostTaken_state, hs, hb]

/-! ## The placed instruction -/

/-- The symbol of a well-formed instruction decodes to it: a catch-all row's byte is no control byte (rule R82). -/
theorem decode_encode_of_wf {i : Instr} (hwf : i.wf = true) : decode i.context (encode i) = .ok i := by
  cases i
  case hsStray b | acOther b | ncStray b =>
    have hd : decodeCtrl b = .stray := decodeCtrl_of_stray (by simpa [Instr.wf] using hwf)
    simp [Instr.context, encode, decode, decodeHs, decodeAc, decodeNc, hd]
  case skWrite p => exact decode_sk_block p
  all_goals rfl

/-- The CTRL port is quiet in a placed state's next step, so the controller state says what happens. -/
theorem withFetch_proceeds (i : Instr) (s : State) : (s.withFetch i).proceeds := by
  have hquiet : (s.withFetch i).hostSample = HostSample.quiet := by
    have hport : (s.withFetch i).hostIn = (s.poised (fetchState i)).hostIn := by cases i <;> rfl
    unfold State.hostSample
    rw [hport]
    cases hh : s.hostIn <;> simp [State.poised, hh]
  exact ⟨by rw [hquiet]; rfl, by rw [hquiet]; rfl⟩

theorem fetchByState_withFetch (i : Instr) (s : State) :
    ∃ t : State, (s.withFetch i).hostTaken.fetchByState = .symbol i.context (encode i) t := by
  cases i
  case skWrite p =>
    have hb : (s.withFetch (.skWrite p)).hostTaken.readBuf = some p :=
      readBuf_eq_some.2 ⟨fun j => by simp [State.withFetch], rfl⟩
    refine ⟨(s.withFetch (.skWrite p)).hostTaken, ?_⟩
    unfold State.fetchByState
    simp only [hb]
    rfl
  all_goals exact ⟨_, rfl⟩

/-- Settles O30: the placed state fetches the symbol, which decodes to the instruction. -/
theorem placedInstructionIsTheNextOneRun : Obligations.PlacedInstructionIsTheNextOneRun := by
  intro i s hwf
  obtain ⟨t, hfetch⟩ := fetchByState_withFetch i s
  have hsymbol := (fetch_of_proceeds (withFetch_proceeds i s)).trans hfetch
  exact ⟨t, hsymbol, stepRunsTheDecodedSymbol _ _ _ _ _ hsymbol (decode_encode_of_wf hwf)⟩

/-! ## The reset state -/

/-- Settles O1: field by field. -/
theorem resetStateHoldsTheResetColumn : Obligations.ResetStateHoldsTheResetColumn := by
  refine ⟨rfl, rfl, rfl, rfl, rfl, rfl, rfl, rfl, rfl, rfl, rfl, fun i => ?_, rfl, rfl, by decide⟩
  exact Vector.getElem_replicate i.isLt

/-- Settles O45: no block is being received, no session has begun, and every history is empty. -/
theorem resetMeetsEveryInvariant : Obligations.ResetMeetsEveryInvariant := by
  have hinv : Inv State.reset := (inv_betweenBlocks (t := State.reset) trivial).2 ⟨rfl, rfl⟩
  have hcounter : CounterLaw State.reset := ⟨nofun, fun _ _ => rfl, nofun, fun _ => nofun⟩
  have hoff : ¬ State.reset.inHandshake := by rintro (hc | hc) <;> cases hc
  have hnever : ¬ (State.reset.inHandshake ∨ State.reset.fail = .handshakeTimeout) := not_or.2 ⟨hoff, nofun⟩
  have hhandshake : HandshakeLaw State.reset :=
    ⟨(absurd · hnever), (absurd · hnever), (absurd · hnever), nofun, nofun, nofun, (absurd · hoff), (absurd · hnever)⟩
  exact ⟨hinv, List.nil_suffix, .inl rfl, nofun, nofun, ⟨Nat.le_refl 0, Nat.le_refl 0, Nat.le_refl 0⟩, hcounter,
    hhandshake, .inl (Nat.zero_le _)⟩

end Sys2Proof.Machine
end

section
/-!
SUPPORT. What a step records of the answer it was given, and from it what the collaborators may hold
(`20_memory.md` R64, R65, R73).
-/
namespace Sys2Proof.Machine

/-! ## The answer a step records -/

section
variable {s t h : State}

/-- What a step adds to the histories (rule R61), by the request its state issues and the collaborator's answer `o` in
this step: the answer, or nothing where there is none. -/
inductive RecordsTheAnswer (h t : State) : Prop
  | internal (hr : h.request = none) (hrx : t.rxLog = h.rxLog) (htx : t.txLog = h.txLog)
      (hsink : t.sinkTrace = h.sinkTrace)
  | read {o : Option RxResponse} {f : Feed RxResponse} (hr : h.request = some .rxRead) (hp : h.rxIn.pull = (o, f))
      (hrx : t.rxLog = h.rxLog ++ (o.map Recorded.got).toList) (htx : t.txLog = h.txLog)
      (hsink : t.sinkTrace = h.sinkTrace)
  | write {b : Byte} {o : Option TxResponse} {f : Feed TxResponse} (hr : h.request = some (.txWrite b))
      (hp : h.txIn.pull = (o, f)) (hrx : t.rxLog = h.rxLog)
      (htx : t.txLog = h.txLog ++ (o.map fun r => (b, Recorded.got r)).toList) (hsink : t.sinkTrace = h.sinkTrace)
  | sink {p : Block} {o : Option SinkResponse} {f : Feed SinkResponse} (hr : h.request = some (.sinkWrite p))
      (hp : h.sinkIn.pull = (o, f)) (hrx : t.rxLog = h.rxLog) (htx : t.txLog = h.txLog)
      (hsink : t.sinkTrace = h.sinkTrace ++ (o.map fun r => (p, Recorded.got r)).toList)

theorem Works.recordsTheAnswer (hw : Works h t) : RecordsTheAnswer h t := by
  cases hw
  case rests hs => exact .internal (by rcases hs with hs | hs | hs <;> simp [State.request, hs]) rfl rfl rfl
  case startsFrame hs hc =>
    have hctrl : h.ctrl = soh := (readCtrl_eq_some.1 hc).2
    exact .internal (by simp [State.request, hs, hctrl, soh, eot]) rfl rfl rfl
  case rejectsHeader hs _ _ | rejectsChecksum hs _ _ _ _ _ | accepts hs _ _ _ _ _ =>
    exact .internal (by simp [State.request, hs]) rfl rfl rfl
  case awaitsRead hr hp => exact .read hr hp (List.append_nil _).symm rfl rfl
  case takesControl hs _ hp => exact .read (request_eq_rxRead_iff.2 (by tauto)) hp rfl rfl rfl
  case strayProbe hs _ hp | probeTimeout hs hp _ | probeCeiling hs hp _ | readsNumber hs _ hp |
      readsComplement hs _ hp | readsData hs _ hp | readsLastData hs _ hp | readsChecksum hs hp |
      strayBetween hs _ hp =>
    exact .read (request_eq_rxRead_iff.2 (by simp [hs])) hp rfl rfl rfl
  case readFails hr hp => exact .read hr.request hp rfl rfl rfl
  case awaitsWrite hr _ hp => exact .write hr hp rfl (List.append_nil _).symm rfl
  case acksBlock hs hp _ | ackFails hs hp _ => exact .write (request_eq_txWrite_iff.2 (by simp [hs])) hp rfl rfl rfl
  case endsTransfer hs hc hp =>
    have hctrl : h.ctrl = eot := (readCtrl_eq_some.1 hc).2
    exact .write (request_eq_txWrite_iff.2 (.inl ⟨rfl, .inr ⟨hs, hctrl⟩⟩)) hp (State.txDone_rxLog ..)
      (State.txDone_txLog ..) (State.txDone_sinkTrace ..)
  case probes hs hp | naksBlock hs hp =>
    exact .write (request_eq_txWrite_iff.2 (by simp [hs])) hp (State.txDone_rxLog ..) (State.txDone_txLog ..)
      (State.txDone_sinkTrace ..)
  case awaitsSink hs _ hp => exact .sink (request_eq_sinkWrite_iff.2 ⟨hs, rfl⟩) hp rfl rfl (List.append_nil _).symm
  case stores hs _ hp | storeFails hs _ hp => exact .sink (request_eq_sinkWrite_iff.2 ⟨hs, rfl⟩) hp rfl rfl rfl

/-- The sample of the CTRL port is no part of a request, an answer or a history. -/
theorem step_recordsTheAnswer (hq : s.proceeds) (hstep : step s = .next t) : RecordsTheAnswer s t := by
  cases (works_of_step hq hstep).recordsTheAnswer with
  | internal hr hrx htx hsink => exact .internal hr hrx htx hsink
  | read hr hp hrx htx hsink => exact .read hr hp hrx htx hsink
  | write hr hp hrx htx hsink => exact .write hr hp hrx htx hsink
  | sink hr hp hrx htx hsink => exact .sink hr hp hrx htx hsink

theorem RecordsTheAnswer.rxLog_of_response {r : RxResponse} {f : Feed RxResponse} (ha : RecordsTheAnswer h t)
    (hreq : h.request = some .rxRead) (hpull : h.rxIn.pull = (some r, f)) : t.rxLog = h.rxLog ++ [.got r] := by
  cases ha with
  | read hr hp hrx _ _ => cases hp.symm.trans hpull; exact hrx
  | internal hr _ _ _ | write hr _ _ _ _ | sink hr _ _ _ _ => cases hr.symm.trans hreq

theorem RecordsTheAnswer.txLog_of_response {b : Byte} {r : TxResponse} {f : Feed TxResponse}
    (ha : RecordsTheAnswer h t) (hreq : h.request = some (.txWrite b)) (hpull : h.txIn.pull = (some r, f)) :
    t.txLog = h.txLog ++ [(b, .got r)] := by
  cases ha with
  | write hr hp _ htx _ => cases hr.symm.trans hreq; cases hp.symm.trans hpull; exact htx
  | internal hr _ _ _ | read hr _ _ _ _ | sink hr _ _ _ _ => cases hr.symm.trans hreq

theorem RecordsTheAnswer.sinkTrace_of_response {p : Block} {r : SinkResponse} {f : Feed SinkResponse}
    (ha : RecordsTheAnswer h t) (hreq : h.request = some (.sinkWrite p)) (hpull : h.sinkIn.pull = (some r, f)) :
    t.sinkTrace = h.sinkTrace ++ [(p, .got r)] := by
  cases ha with
  | sink hr hp _ _ hsink => cases hr.symm.trans hreq; cases hp.symm.trans hpull; exact hsink
  | internal hr _ _ _ | read hr _ _ _ _ | write hr _ _ _ _ => cases hr.symm.trans hreq

theorem RecordsTheAnswer.sinkTrace_cases (ha : RecordsTheAnswer h t) :
    t.sinkTrace = h.sinkTrace ∨ ∃ (p : Block) (r : SinkResponse), t.sinkTrace = h.sinkTrace ++ [(p, .got r)] := by
  cases ha with
  | internal _ _ _ hsink | read _ _ _ _ hsink | write _ _ _ _ hsink => exact .inl hsink
  | @sink p o f _ _ _ _ hsink =>
    cases o with
    | none => exact .inl (hsink.trans (List.append_nil _))
    | some r => exact .inr ⟨p, r, hsink⟩

/-! ## The transaction a reset drops -/

/-- A reset that aborts a transaction adds it to its history, with the response dropped (rule R201). -/
theorem step_records_dropped {r : Request} (ha : s.aborts r) (hstep : step s = .next t) :
    match r with
    | .rxRead => t.rxLog = s.rxLog ++ [.dropped]
    | .txWrite b => t.txLog = s.txLog ++ [(b, .dropped)]
    | .sinkWrite p => t.sinkTrace = s.sinkTrace ++ [(p, .dropped)] := by
  obtain ⟨hreset, hout⟩ := ha
  cases hstep.symm.trans (step_of_reset hreset)
  cases r <;> simp [State.hardReset, resetRegisters_eq, State.dropOutstanding, hout]

theorem hardReset_sinkTrace (hno : ∀ p : Block, s.outstanding ≠ some (.sinkWrite p)) :
    s.hardReset.sinkTrace = s.sinkTrace := by
  unfold State.hardReset State.dropOutstanding
  split
  case h_4 p hout => exact absurd hout (hno p)
  all_goals rfl

/-- Where no reset aborts a sink write, the sink's record gets at most one entry, and that is an answered write. -/
theorem step_sinkTrace_cases (hstep : step s = .next t) (hno : ∀ p : Block, ¬ s.aborts (.sinkWrite p)) :
    t.sinkTrace = s.sinkTrace ∨ ∃ (p : Block) (r : SinkResponse), t.sinkTrace = s.sinkTrace ++ [(p, .got r)] := by
  obtain ⟨hreset, rfl⟩ | ⟨-, -, -, rfl⟩ | ⟨-, hw⟩ := step_next_cases hstep
  · exact .inl (hardReset_sinkTrace (s := s.hostTaken) fun p hout => hno p ⟨hreset, hout⟩)
  · exact .inl rfl
  · exact hw.recordsTheAnswer.sinkTrace_cases

end

/-! ## The effects of a history -/

section
variable {α : Type} {effect : α → List Byte → List Byte → Prop}

/-- Where each transaction adds exactly its own bytes, the history adds exactly all of them, in order. -/
theorem mayBecome_iff_of_exact {bytes : α → List Byte} {l : List α}
    (hexact : ∀ e ∈ l, ∀ before after : List Byte, effect e before after ↔ after = before ++ bytes e)
    (before after : List Byte) : MayBecome effect l before after ↔ after = before ++ l.flatMap bytes := by
  induction l generalizing before with
  | nil => simp
  | cons e l ih =>
    obtain ⟨he, hl⟩ := List.forall_mem_cons.1 hexact
    simp [MayBecome, he, ih hl]

/-- Where each transaction can have an effect, so can the history. -/
theorem exists_mayBecome (htotal : ∀ (e : α) (before : List Byte), ∃ after : List Byte, effect e before after)
    (l : List α) (before : List Byte) : ∃ after : List Byte, MayBecome effect l before after := by
  induction l generalizing before with
  | nil => exact ⟨before, rfl⟩
  | cons e l ih =>
    obtain ⟨mid, he⟩ := htotal e before
    obtain ⟨after, hl⟩ := ih mid
    exact ⟨after, mid, he, hl⟩

end

/-- Whatever became of a sink write, the sink may hold all of its block. -/
theorem sinkEffect_append_block (e : Block × Recorded SinkResponse) (before : List Byte) :
    SinkEffect e before (before ++ e.1.toList) := by
  obtain ⟨p, (_ | _) | _⟩ := e
  · exact rfl
  · exact ⟨p.toList.length, by rw [List.take_length]⟩
  · exact trivial

/-- An answered sink write takes nothing away from what the sink held. -/
theorem SinkEffect.isPrefix {p : Block} {r : SinkResponse} {before after : List Byte}
    (he : SinkEffect (p, .got r) before after) : before <+: after := by
  cases r with
  | ok => exact ⟨p.toList, he.symm⟩
  | fail => exact he.elim fun n hn => ⟨p.toList.take n, hn.symm⟩

theorem SenderEffect.eq_or_append {e : Byte × Recorded TxResponse} {before after : List Byte}
    (he : SenderEffect e before after) : after = before ∨ after = before ++ [e.1] := by
  obtain ⟨b, (_ | _) | _⟩ := e
  · exact .inr he
  · exact he
  · exact he

/-- What the sender got is among what was offered, in order (rule R64, I4). -/
theorem mayBecome_senderEffect_sublist {l : List (Byte × Recorded TxResponse)} {before after : List Byte}
    (hm : MayBecome SenderEffect l before after) :
    ∃ got : List Byte, after = before ++ got ∧ got.Sublist (l.map Prod.fst) := by
  induction l generalizing before with
  | nil => exact ⟨[], by simpa using hm, List.Sublist.slnil⟩
  | cons e l ih =>
    obtain ⟨mid, he, hl⟩ := hm
    obtain ⟨got, rfl, hgot⟩ := ih hl
    obtain rfl | rfl := he.eq_or_append
    · exact ⟨got, rfl, hgot.cons _⟩
    · exact ⟨e.1 :: got, by simp, hgot.cons_cons _⟩

theorem sinkLog_eq_map {s : State} (hok : ∀ e ∈ s.sinkTrace, e.2 = .got .ok) :
    s.sinkLog = s.sinkTrace.map Prod.fst := by
  unfold State.sinkLog
  rw [← List.filterMap_eq_map]
  refine List.filterMap_congr fun e he => ?_
  obtain ⟨p, r⟩ := e
  obtain rfl : r = .got .ok := hok _ he
  rfl

/-! ## What the collaborators may hold -/

section
variable {s t : State} {before after : List Byte}

/-- The rule for one more sink write on the record. -/
theorem sinkMayHold_iff {e : Block × Recorded SinkResponse} (htrace : t.sinkTrace = s.sinkTrace ++ [e]) :
    SinkMayHold t before after ↔ ∃ mid : List Byte, SinkMayHold s before mid ∧ SinkEffect e mid after := by
  rw [SinkMayHold, htrace, mayBecome_append_singleton]
  rfl

/-- The rule for one more transmitted byte on the record. -/
theorem senderMayHave_iff {e : Byte × Recorded TxResponse} (hlog : t.txLog = s.txLog ++ [e]) :
    SenderMayHave t before after ↔ ∃ mid : List Byte, SenderMayHave s before mid ∧ SenderEffect e mid after := by
  rw [SenderMayHave, hlog, mayBecome_append_singleton]
  rfl

/-- The rule for one more read on the record. -/
theorem channelMayHaveGiven_iff {e : Recorded RxResponse} (hlog : t.rxLog = s.rxLog ++ [e]) :
    ChannelMayHaveGiven t before after ↔
      ∃ mid : List Byte, ChannelMayHaveGiven s before mid ∧ ChannelEffect e mid after := by
  rw [ChannelMayHaveGiven, hlog, mayBecome_append_singleton]
  rfl

theorem sinkMayHold_extends (hstep : step s = .next t) (hno : ∀ p : Block, ¬ s.aborts (.sinkWrite p)) :
    (SinkMayHold t before after → ∃ mid : List Byte, SinkMayHold s before mid ∧ mid <+: after) ∧
      (SinkMayHold s before after → ∃ more : List Byte, SinkMayHold t before (after ++ more)) := by
  obtain hsame | ⟨p, r, hmore⟩ := step_sinkTrace_cases hstep hno
  · have heq : SinkMayHold t = SinkMayHold s := by unfold SinkMayHold; rw [hsame]
    rw [heq]
    exact ⟨fun hm => ⟨after, hm, [], List.append_nil _⟩, fun hm => ⟨[], by rwa [List.append_nil]⟩⟩
  · rw [sinkMayHold_iff hmore]
    exact ⟨fun ⟨mid, hm, he⟩ => ⟨mid, hm, he.isPrefix⟩,
      fun hm => ⟨p.toList, (sinkMayHold_iff hmore).2 ⟨after, hm, sinkEffect_append_block _ _⟩⟩⟩

theorem sinkMayHold_of_aborts {p : Block} (ha : s.aborts (.sinkWrite p)) (hstep : step s = .next t) :
    SinkMayHold t before after := by
  obtain ⟨mid, hm⟩ := exists_mayBecome (fun e b => ⟨_, sinkEffect_append_block e b⟩) s.sinkTrace before
  exact (sinkMayHold_iff (step_records_dropped ha hstep)).2 ⟨mid, hm, trivial⟩

theorem sinkMayHold_iff_of_ok (hok : ∀ e ∈ s.sinkTrace, e.2 = .got .ok) :
    SinkMayHold s before after ↔ after = before ++ (s.sinkLog.map Vector.toList).flatten := by
  have hexact : ∀ e ∈ s.sinkTrace, ∀ b a : List Byte, SinkEffect e b a ↔ a = b ++ e.1.toList := by
    rintro ⟨p, r⟩ he b a
    obtain rfl : r = .got .ok := hok _ he
    rfl
  rw [SinkMayHold, mayBecome_iff_of_exact hexact, sinkLog_eq_map hok, List.map_map]
  rfl

theorem senderMayHave_iff_of_ok (hok : ∀ e ∈ s.txLog, e.2 = .got .ok) :
    SenderMayHave s before after ↔ after = before ++ s.txLog.map Prod.fst := by
  have hexact : ∀ e ∈ s.txLog, ∀ b a : List Byte, SenderEffect e b a ↔ a = b ++ [e.1] := by
    rintro ⟨sent, r⟩ he b a
    obtain rfl : r = .got .ok := hok _ he
    rfl
  rw [SenderMayHave, mayBecome_iff_of_exact hexact, ← List.map_eq_flatMap]

end

/-- Settles O60: each step adds at most one entry to the histories, by the answer it was given or the transaction a
reset drops, and the entry's effect comes after that of all the others. -/
theorem collaboratorsHoldWhatWasAnswered : Obligations.CollaboratorsHoldWhatWasAnswered := by
  refine ⟨fun s t before after hstep => ⟨sinkMayHold_extends hstep, fun p ha => sinkMayHold_of_aborts ha hstep,
    fun hq hs => ?sink, fun b f hq hr => ?write, fun b ha => senderMayHave_iff (step_records_dropped ha hstep),
    fun hq hr => ?read, fun ha => channelMayHaveGiven_iff (step_records_dropped ha hstep)⟩,
    fun s before after => ⟨sinkMayHold_iff_of_ok, senderMayHave_iff_of_ok, mayBecome_senderEffect_sublist⟩⟩
  case sink =>
    have ha := step_recordsTheAnswer hq hstep
    have hr : s.request = some (.sinkWrite s.buf) := request_eq_sinkWrite_iff.2 ⟨hs, rfl⟩
    refine ⟨fun f hp => sinkMayHold_iff (ha.sinkTrace_of_response hr hp), fun f hp => ?_⟩
    rw [sinkMayHold_iff (ha.sinkTrace_of_response hr hp)]
    simp only [SinkEffect, exists_and_left]
  case write =>
    have ha := step_recordsTheAnswer hq hstep
    exact ⟨fun hp => senderMayHave_iff (ha.txLog_of_response hr hp),
      fun hp => senderMayHave_iff (ha.txLog_of_response hr hp)⟩
  case read =>
    have ha := step_recordsTheAnswer hq hstep
    refine ⟨fun b f hp => channelMayHaveGiven_iff (ha.rxLog_of_response hr hp), fun f hp => ?_⟩
    rw [channelMayHaveGiven_iff (ha.rxLog_of_response hr hp)]
    simp [ChannelEffect]

end Sys2Proof.Machine
end

section
/-!
SUPPORT. The encoding family: each symbol of a context and its one row (`30_encoding.md` R80 to R93), the complement
relation (R85), the transmitted bytes (R90), and where the meanings stop.
-/
namespace Sys2Proof.Machine

/-! ## Symbols and their rows -/

/-- Settles O32: by the rows of the table, where a catch-all row's byte falls to no exact row. -/
theorem decodeOfEncodeIsTheInstruction : Obligations.DecodeOfEncodeIsTheInstruction := by
  intro i hwf
  exact decode_encode_of_wf hwf

section
variable {c : Context} {w : List Byte} {i : Instr}

/-- The bytes are the symbol of this row of the table in the context (rule R93). -/
def HasSymbol (i : Instr) (c : Context) (w : List Byte) : Prop := i.wf = true ∧ i.context = c ∧ encode i = w

theorem HasSymbol.decode_eq (hs : HasSymbol i c w) : decode c w = .ok i := by
  obtain ⟨hwf, rfl, rfl⟩ := hs
  exact decode_encode_of_wf hwf

/-- In a control position every byte is the symbol of a row: SOH and EOT of their own rows, any other of the catch-all
row (rule R82). -/
theorem exists_hasSymbol_control (b : Byte) :
    (∃ i, HasSymbol i .hs [b]) ∧ (∃ i, HasSymbol i .ac [b]) ∧ ∃ i, HasSymbol i .nc [b] := by
  obtain ⟨rfl, -⟩ | ⟨rfl, -⟩ | ⟨hb, -⟩ := decodeCtrl_cases b
  · exact ⟨⟨.hsSoh, rfl, rfl, rfl⟩, ⟨.acSoh, rfl, rfl, rfl⟩, ⟨.ncSoh, rfl, rfl, rfl⟩⟩
  · exact ⟨⟨.hsEot, rfl, rfl, rfl⟩, ⟨.acEot, rfl, rfl, rfl⟩, ⟨.ncEot, rfl, rfl, rfl⟩⟩
  · have hwf : (!isControlByte b) = true := by rw [hb]; rfl
    exact ⟨⟨.hsStray b, hwf, rfl, rfl⟩, ⟨.acOther b, hwf, rfl, rfl⟩, ⟨.ncStray b, hwf, rfl, rfl⟩⟩

theorem decodeTx_byte_eq_ok {b : Byte} (hd : decode .tx [b] = .ok i) : b = ack ∨ b = nak := by
  by_contra! hne
  simp [decode, decodeTx, hne] at hd

theorem decodeSk_eq_ok (hd : decode .sk w = .ok i) : ∃ p : Block, p.toList = w := by
  by_cases hlen : w.length = blockSize
  · exact ⟨⟨⟨w⟩, hlen⟩, rfl⟩
  · simp [decode, decodeSk, hlen] at hd

/-- What decodes is the symbol of some row; the bytes of every other length, and the bytes the block never transmits,
are no symbol. -/
theorem exists_hasSymbol_of_decode (hd : decode c w = .ok i) : ∃ j, HasSymbol j c w := by
  match c, w with
  | .sk, w =>
    obtain ⟨p, rfl⟩ := decodeSk_eq_ok hd
    exact ⟨.skWrite p, rfl, rfl, rfl⟩
  | .hs, [] => exact ⟨.hsTimeout, rfl, rfl, rfl⟩
  | .frHdr, [] => exact ⟨.frHdrTimeout, rfl, rfl, rfl⟩
  | .frData, [] => exact ⟨.frDataTimeout, rfl, rfl, rfl⟩
  | .frCksum, [] => exact ⟨.frCksumTimeout, rfl, rfl, rfl⟩
  | .nc, [] => exact ⟨.ncTimeout, rfl, rfl, rfl⟩
  | .hs, [b] => exact (exists_hasSymbol_control b).1
  | .ac, [b] => exact (exists_hasSymbol_control b).2.1
  | .nc, [b] => exact (exists_hasSymbol_control b).2.2
  | .frHdr, [b] => exact ⟨.frHdr b, rfl, rfl, rfl⟩
  | .frData, [b] => exact ⟨.frData b, rfl, rfl, rfl⟩
  | .frCksum, [b] => exact ⟨.frCksum b, rfl, rfl, rfl⟩
  | .tx, [b] =>
    obtain rfl | rfl := decodeTx_byte_eq_ok hd
    · exact ⟨.txAck, rfl, rfl, rfl⟩
    · exact ⟨.txNak, rfl, rfl, rfl⟩
  | .ac, [] | .tx, [] => cases hd
  | .hs, _ :: _ :: _ | .ac, _ :: _ :: _ | .frHdr, _ :: _ :: _ | .frData, _ :: _ :: _ | .frCksum, _ :: _ :: _ |
      .nc, _ :: _ :: _ | .tx, _ :: _ :: _ => cases hd

/-- The decoder inverts the encoder on the rows of a context, and on nothing else. -/
theorem decode_eq_ok_iff : decode c w = .ok i ↔ HasSymbol i c w := by
  refine ⟨fun hd => ?_, HasSymbol.decode_eq⟩
  obtain ⟨j, hj⟩ := exists_hasSymbol_of_decode hd
  obtain rfl : j = i := Except.ok.inj (hj.decode_eq.symm.trans hd)
  exact hj

end

/-- Settles O33: what decodes is the symbol of a row, and that row is the one decoded to. -/
theorem encodeOfDecodeIsTheSymbol : Obligations.EncodeOfDecodeIsTheSymbol := by
  intro c w i hd
  exact decode_eq_ok_iff.1 hd

/-- Settles O31: each word by the definitions' constants, and a stray byte as the symbol of its catch-all row. -/
theorem symbolsDecodeAsTheSpecMapsThem : Obligations.SymbolsDecodeAsTheSpecMapsThem := by
  refine ⟨rfl, rfl, rfl, rfl, rfl, rfl, rfl, rfl, rfl, rfl, rfl, rfl, rfl, rfl, rfl, rfl, fun b => ?_⟩
  refine ⟨rfl, rfl, rfl, fun hsoh heot => ?_⟩
  have hwf : (!isControlByte b) = true := by simp [isControlByte, soh, eot, hsoh, heot]
  exact ⟨decode_encode_of_wf (i := .hsStray b) hwf, decode_encode_of_wf (i := .ncStray b) hwf⟩

/-! ## The complement relation -/

theorem hdrOk_iff {b c : Byte} : hdrOk b c = true ↔ (b.toNat + c.toNat) % 256 = 0xFF := beq_iff_eq

theorem sum_eq_255_iff_eq_sub {b c : Byte} : (b.toNat + c.toNat) % 256 = 0xFF ↔ c = 0xFF#8 - b := by
  rw [← BitVec.toNat_inj]
  have hb : b.toNat < 256 := b.isLt
  have hc : c.toNat < 256 := c.isLt
  simp only [BitVec.toNat_sub, BitVec.toNat_ofNat]
  omega

theorem ff_sub_eq_xor (b : Byte) : 0xFF#8 - b = b ^^^ 0xFF#8 :=
  (BitVec.allOnes_sub_eq_not b).trans BitVec.xor_allOnes.symm

/-- Settles O34: the sum, the difference and the XOR form name the same byte, which is then the only one to pass. -/
theorem complementFormsAgree : Obligations.ComplementFormsAgree := by
  intro b c
  have hcheck : ∀ d : Byte, hdrOk b d = true ↔ d = 0xFF#8 - b := fun d => hdrOk_iff.trans sum_eq_255_iff_eq_sub
  refine ⟨hdrOk_iff, sum_eq_255_iff_eq_sub, ?_, 0xFF#8 - b, (hcheck _).2 rfl, fun d => (hcheck d).1⟩
  rw [← ff_sub_eq_xor]
  exact sum_eq_255_iff_eq_sub

/-! ## The transmitted bytes -/

/-- Settles O38: what a step adds to `TxLog` is the byte its state asks to write. -/
theorem onlyAckAndNakAreTransmitted : Obligations.OnlyAckAndNakAreTransmitted := by
  intro s t hp hstep hne
  cases step_recordsItsRequest hstep hp with
  | nothing _ htx _ | read _ _ htx _ | sink _ _ htx _ => exact absurd htx hne
  | write hr _ htx _ => exact ⟨_, _, htx, request_eq_txWrite_iff.1 hr⟩

/-! ## Where the meanings stop -/

section
variable {s : State} {k : Result}

/-- A row of a frame field met past the field's end (log entry 5). -/
theorem inState_inField_of_le {c : Ctl} {n : Nat} (hs : s.state = c) (hi : n ≤ s.idx.toNat) :
    s.inState c (s.inField n k) = .fault .modelUnreachable :=
  (inState_of_state hs).trans (if_neg (Nat.not_lt.2 hi))

/-- A dispatch row that `ctrl` does not select, where `ctrl` selects another (rules R120, R121). -/
theorem dispatchOn_of_other {b c : Byte} (hs : s.state = .awaitCtrl) (hc : s.readCtrl = some c)
    (hctl : isControlByte c = true) (hne : c ≠ b) : s.dispatchOn b k = .refused .noSuchTransaction := by
  simp [State.dispatchOn, inState_of_state hs, hc, hctl, hne]

/-- A row that runs in one state faults in a reserved one (rule R186). -/
theorem inState_of_reserved {c : Ctl} (hr : s.state.isReserved = true) (hc : c.isReserved = false) :
    s.inState c k = .fault .modelUnreachable := by
  have hne : s.state ≠ c := by rintro rfl; simp [hr] at hc
  simp [State.inState, State.offRow, hne, hr]

theorem readBuf_eq_none (hb : ∃ i : Fin blockSize, s.held.buf[i] = false) : s.readBuf = none := by
  obtain ⟨i, hi⟩ := hb
  refine Option.eq_none_iff_forall_ne_some.2 fun p hp => ?_
  rw [(readBuf_eq_some.1 hp).1 i] at hi
  cases hi

theorem readRxCk_eq_none (hk : s.held.rxCk = false) : s.readRxCk = none := by simp [State.readRxCk, hk]

/-- The checksum comparison is a read of the buffer and of `rx_ck` (rules R45, R142). -/
theorem validate_of_unspecified {n c : Byte} (hh : s.readHeader = some (n, c)) (hok : hdrOk n c = true)
    (hnone : s.readRxCk = none ∨ s.readBuf = none) : validate s = .fault .unspecifiedRead := by
  obtain hk | hb := hnone
  · cases hb : s.readBuf <;> simp [validate, hh, hok, hk, hb]
  · simp [validate, hh, hok, hb]

theorem step_of_validating (hq : s.proceeds) (hs : s.state = .validating) : step s = validate s.hostTaken := by
  rw [step_of_proceeds hq]
  simp [State.fetchByState, hs, Fetched.outcome]

theorem exec_stray_of_control {b : Byte} (hb : isControlByte b = true) (s : State) :
    exec (.hsStray b) s = .refused .illFormedSymbol ∧ exec (.ncStray b) s = .refused .illFormedSymbol :=
  ⟨if_pos hb, if_pos hb⟩

theorem step_validating_of_unspecified (hq : s.proceeds) (hs : s.state = .validating) (hn : s.held.hdrNum = true)
    (hc : s.held.hdrCmp = true) (hok : hdrOk s.hdrNum s.hdrCmp = true)
    (hnone : s.held.rxCk = false ∨ ∃ i : Fin blockSize, s.held.buf[i] = false) :
    step s = .fault .unspecifiedRead := by
  have hh : s.hostTaken.readHeader = some (s.hdrNum, s.hdrCmp) := readHeader_eq_some.2 ⟨hn, hc, rfl, rfl⟩
  rw [step_of_validating hq hs]
  refine validate_of_unspecified hh hok ?_
  exact hnone.imp (readRxCk_eq_none (s := s.hostTaken)) (readBuf_eq_none (s := s.hostTaken))

theorem exec_acSoh_of_eot (hs : s.state = .awaitCtrl) (hc : s.readCtrl = some eot) :
    exec .acSoh s = .refused .noSuchTransaction :=
  dispatchOn_of_other hs hc rfl (by decide)

theorem exec_acEot_txAck_of_soh (hs : s.state = .awaitCtrl) (hc : s.readCtrl = some soh) :
    exec .acEot s = .refused .noSuchTransaction ∧ exec .txAck s = .refused .noSuchTransaction := by
  have hack : ackEot s = .refused .noSuchTransaction := dispatchOn_of_other hs hc rfl (by decide)
  refine ⟨hack, ?_⟩
  show execTxAck s = _
  simpa only [execTxAck, hs] using hack

theorem exec_skWrite_of_unspecified (p : Block) (hs : s.state = .accWrite) (hb : s.readBuf = none) :
    exec (.skWrite p) s = .fault .unspecifiedRead := by
  simp [exec, execSkWrite, inState_of_state hs, hb]

theorem exec_skWrite_of_other {p : Block} (hs : s.state = .accWrite) (hb : s.bufHolds) (hne : p ≠ s.buf) :
    exec (.skWrite p) s = .refused .noSuchTransaction := by
  have hbuf : s.readBuf = some s.buf := readBuf_eq_some.2 ⟨hb, rfl⟩
  simp [exec, execSkWrite, inState_of_state hs, hbuf, hne.symm]

theorem exec_of_reserved {i : Instr} (hwf : i.wf = true) (hr : s.state = .reserved14 ∨ s.state = .reserved15) :
    exec i s = .fault .modelUnreachable := by
  have hres : s.state.isReserved = true := by obtain hs | hs := hr <;> rw [hs] <;> rfl
  cases i
  case hsStray b | ncStray b =>
    have hb : isControlByte b = false := by simpa [Instr.wf] using hwf
    exact (if_neg (by simp [hb])).trans (inState_of_reserved hres rfl)
  case acOther => rfl
  case txAck => obtain hs | hs := hr <;> simp [exec, execTxAck, State.offRow, hs, Ctl.isReserved]
  case txNak => obtain hs | hs := hr <;> simp [exec, execTxNak, State.offRow, hs, Ctl.isReserved]
  all_goals exact inState_of_reserved hres rfl

end

/-- Settles O29: clause by clause, from where each shared operation stops. -/
theorem illFormedUsesAreStopped : Obligations.IllFormedUsesAreStopped := by
  refine ⟨fun b s hb => exec_stray_of_control ((isControlByte_iff b).2 hb) s, fun b s => ⟨?_, ?_⟩, ?_, ?_, ?_, ?_⟩
  · exact fun hs hi => ⟨inState_inField_of_le hs hi, inState_inField_of_le hs hi⟩
  · exact fun hs hi => ⟨inState_inField_of_le hs hi, inState_inField_of_le hs hi⟩
  · intro s hq hs hn hc hsum hnone
    exact step_validating_of_unspecified hq hs hn hc (hdrOk_iff.2 hsum) hnone
  · intro s hs hheld
    have hread : ∀ b, s.ctrl = b → s.readCtrl = some b := fun b hc => readCtrl_eq_some.2 ⟨hheld, hc⟩
    exact ⟨fun hc => exec_acSoh_of_eot hs (hread _ hc), fun hc => exec_acEot_txAck_of_soh hs (hread _ hc)⟩
  · intro p s hs
    exact ⟨fun hb => exec_skWrite_of_unspecified p hs (readBuf_eq_none hb), exec_skWrite_of_other hs⟩
  · intro i s hwf hr
    exact exec_of_reserved hwf hr

end Sys2Proof.Machine
end

section
/-!
SUPPORT. What `HandshakeLaw` says in each controller state; from these, that every step keeps it (`40_handshake.md`
R100 to R106).
-/
namespace Sys2Proof.Machine

section
variable {s t h : State}

/-! ## A session's part of the histories -/

theorem sessionRxLog_append {e : Recorded RxResponse} (hm : MarksWithin h) (hmark : t.rxMark = h.rxMark)
    (hlog : t.rxLog = h.rxLog ++ [e]) : t.sessionRxLog = h.sessionRxLog ++ [e] := by
  unfold State.sessionRxLog
  rw [hmark, hlog, List.drop_append_of_le_length hm.1]

theorem sessionTxLog_append {e : Byte × Recorded TxResponse} (hm : MarksWithin h) (hmark : t.txMark = h.txMark)
    (hlog : t.txLog = h.txLog ++ [e]) : t.sessionTxLog = h.sessionTxLog ++ [e] := by
  unfold State.sessionTxLog
  rw [hmark, hlog, List.drop_append_of_le_length hm.2.1]

/-! ## The law by controller state -/

/-- What `HandshakeLaw` says in the loop and after the ceiling alike, with `n` NAKs sent that no read has followed. -/
structure OnlyProbed (n : Nat) (s : State) : Prop where
  reads : s.sessionRxLog.all isProbeAnswer = true
  counts : s.retry.toNat = s.sessionRxLog.count (.got .timeout)
  onlyNak : ∀ e ∈ s.sessionTxLog, e.1 = nak
  length : s.sessionTxLog.length = s.sessionRxLog.length + n
  untouched : s.sessionSinkLog = [] ∧ s.expBlk = 1 ∧ s.verdict = .none

theorem HandshakeLaw.hsNak (hl : HandshakeLaw s) (hs : s.state = .hsNak) :
    OnlyProbed 0 s ∧ s.retry.toNat ≤ s.params.retryCeiling.val :=
  have hin : s.inHandshake := .inl hs
  ⟨⟨hl.reads (.inl hin), hl.counts (.inl hin), hl.onlyNak (.inl hin), hl.beforeNak hs, hl.untouched (.inl hin)⟩,
    hl.belowCeiling hin⟩

theorem HandshakeLaw.hsRead (hl : HandshakeLaw s) (hs : s.state = .hsRead) :
    OnlyProbed 1 s ∧ s.retry.toNat ≤ s.params.retryCeiling.val :=
  have hin : s.inHandshake := .inr hs
  ⟨⟨hl.reads (.inl hin), hl.counts (.inl hin), hl.onlyNak (.inl hin), hl.beforeRead hs, hl.untouched (.inl hin)⟩,
    hl.belowCeiling hin⟩

theorem OnlyProbed.law_of_hsNak (hp : OnlyProbed 0 s) (hs : s.state = .hsNak) (hf : s.fail = .none)
    (hr : s.retry.toNat ≤ s.params.retryCeiling.val) : HandshakeLaw s :=
  ⟨fun _ => hp.reads, fun _ => hp.counts, fun _ => hp.onlyNak, fun _ => hp.length, by simp [hs], by simp [hf],
    fun _ => hr, fun _ => hp.untouched⟩

theorem OnlyProbed.law_of_hsRead (hp : OnlyProbed 1 s) (hs : s.state = .hsRead) (hf : s.fail = .none)
    (hr : s.retry.toNat ≤ s.params.retryCeiling.val) : HandshakeLaw s :=
  ⟨fun _ => hp.reads, fun _ => hp.counts, fun _ => hp.onlyNak, by simp [hs], fun _ => hp.length, by simp [hf],
    fun _ => hr, fun _ => hp.untouched⟩

/-- The handshake that the ceiling ended (rules R105, R106). -/
theorem OnlyProbed.law_of_failed (hp : OnlyProbed 0 s) (hs : s.state = .failed)
    (hr : s.retry.toNat = s.params.retryCeiling.val + 1) : HandshakeLaw s :=
  ⟨fun _ => hp.reads, fun _ => hp.counts, fun _ => hp.onlyNak, by simp [hs], by simp [hs], fun _ => ⟨hp.length, hr⟩,
    by simp [State.inHandshake, hs], fun _ => hp.untouched⟩

/-- Outside the handshake and its failure the law asks nothing. -/
theorem handshakeLaw_elsewhere (hoff : ¬ s.inHandshake) (hf : s.fail ≠ .handshakeTimeout) : HandshakeLaw s := by
  have hnever : ¬ (s.inHandshake ∨ s.fail = .handshakeTimeout) := not_or.2 ⟨hoff, hf⟩
  exact ⟨(absurd · hnever), (absurd · hnever), (absurd · hnever), fun hs => absurd (.inl hs) hoff,
    fun hs => absurd (.inr hs) hoff, (absurd · hf), (absurd · hoff), (absurd · hnever)⟩

/-- The law speaks of `state`, `fail`, `retry`, `expBlk`, `verdict`, the ceiling and the session's histories. -/
theorem HandshakeLaw.congr (hl : HandshakeLaw h) (hs : t.state = h.state) (hf : t.fail = h.fail)
    (hr : t.retry = h.retry) (he : t.expBlk = h.expBlk) (hv : t.verdict = h.verdict) (hp : t.params = h.params)
    (hrx : t.sessionRxLog = h.sessionRxLog) (htx : t.sessionTxLog = h.sessionTxLog)
    (hsink : t.sessionSinkLog = h.sessionSinkLog) : HandshakeLaw t := by
  constructor <;> simp only [State.inHandshake, hs, hf, hr, he, hv, hp, hrx, htx, hsink]
  · exact hl.reads
  · exact hl.counts
  · exact hl.onlyNak
  · exact hl.beforeNak
  · exact hl.beforeRead
  · exact hl.atCeiling
  · exact hl.belowCeiling
  · exact hl.untouched

/-! ## What a probe and its answer do -/

/-- A NAK more leaves only NAKs sent (rule R101). -/
theorem OnlyProbed.probe {n : Nat} {r : Recorded TxResponse} (hp : OnlyProbed n h)
    (hrx : t.sessionRxLog = h.sessionRxLog) (htx : t.sessionTxLog = h.sessionTxLog ++ [(nak, r)])
    (hsink : t.sessionSinkLog = h.sessionSinkLog) (hr : t.retry = h.retry) (he : t.expBlk = h.expBlk)
    (hv : t.verdict = h.verdict) : OnlyProbed (n + 1) t := by
  constructor <;> simp only [hrx, htx, hsink, hr, he, hv]
  · exact hp.reads
  · exact hp.counts
  · intro e he
    obtain he | rfl := (List.mem_append.1 he).imp_right List.mem_singleton.1
    · exact hp.onlyNak e he
    · rfl
  · rw [List.length_append, hp.length]
    rfl
  · exact hp.untouched

/-- A timeout counts and a stray byte does not (rules R102, R104). -/
theorem OnlyProbed.answer {n : Nat} {e : Recorded RxResponse} (hp : OnlyProbed (n + 1) h)
    (hprobe : isProbeAnswer e = true) (hrx : t.sessionRxLog = h.sessionRxLog ++ [e])
    (htx : t.sessionTxLog = h.sessionTxLog) (hsink : t.sessionSinkLog = h.sessionSinkLog)
    (hr : t.retry.toNat = h.retry.toNat + [e].count (.got .timeout)) (he : t.expBlk = h.expBlk)
    (hv : t.verdict = h.verdict) : OnlyProbed n t := by
  constructor <;> simp only [hrx, htx, hsink, hr, he, hv]
  · simp [hp.reads, hprobe]
  · rw [List.count_append, hp.counts]
  · exact hp.onlyNak
  · rw [List.length_append, hp.length, List.length_singleton]
    omega
  · exact hp.untouched

/-- The count after a timeout, which the ceiling keeps below 256 (rule R102). -/
theorem retry_succ_toNat (hb : h.retry.toNat ≤ h.params.retryCeiling.val) :
    (BitVec.ofNat 8 (h.retry.toNat + 1)).toNat = h.retry.toNat + 1 := by
  have hceiling : h.params.retryCeiling.val < 255 := h.params.retryCeiling.isLt
  rw [BitVec.toNat_ofNat, Nat.mod_eq_of_lt (by omega)]

theorem State.ReadFailure.reason_ne_handshakeTimeout {r : FailReason} (hr : s.ReadFailure r) :
    r ≠ .handshakeTimeout := by
  rcases hr with ⟨-, -, rfl⟩ | ⟨-, -, rfl⟩ | ⟨-, rfl⟩ | ⟨-, rfl⟩ <;> decide

/-- A session begins with nothing read and nothing sent (rules R100, R203). -/
theorem onlyProbed_startSession (s : State) : OnlyProbed 0 s.startSession := by
  have hrx : s.startSession.sessionRxLog = [] := List.drop_length
  have htx : s.startSession.sessionTxLog = [] := List.drop_length
  have hsink : s.startSession.sessionSinkLog = [] := congrArg (List.filterMap storedBlock) List.drop_length
  constructor <;> simp only [hrx, htx, hsink]
  case onlyNak => exact nofun
  case untouched => exact ⟨trivial, rfl, rfl⟩
  all_goals rfl

/-- A transmission's end outside the handshake does not enter it, and its failure is not the ceiling's. -/
theorem handshakeLaw_txDone {c : Ctl} (r : TxResponse) (hc : c ≠ .hsNak ∧ c ≠ .hsRead)
    (hf : s.fail ≠ .handshakeTimeout) : HandshakeLaw (s.txDone r c) := by
  obtain ⟨-, ht⟩ | ⟨-, ht⟩ := txDone_cases r c s <;> rw [ht]
  · exact handshakeLaw_elsewhere (not_or.2 hc) hf
  · exact handshakeLaw_elsewhere (by simp [State.inHandshake]) nofun

theorem Works.handshakeLaw (hw : Works h t) (hi : Inv h) (hm : MarksWithin h) (hl : HandshakeLaw h) :
    HandshakeLaw t := by
  by_cases hfailed : h.state = .failed
  · rw [hw.eq_advance_of_failed hfailed]
    exact hl.congr hfailed.symm rfl rfl rfl rfl rfl rfl rfl rfl
  have hfail : h.fail = .none := hi.fail_eq_none hfailed
  have hne : h.fail ≠ .handshakeTimeout := hfail.trans_ne nofun
  cases hw
  case rests | awaitsRead | awaitsWrite | awaitsSink => exact hl.congr rfl rfl rfl rfl rfl rfl rfl rfl rfl
  case probes r f hs hp =>
    obtain ⟨hprobed, hretry⟩ := hl.hsNak hs
    obtain ⟨-, ht⟩ | ⟨-, ht⟩ := txDone_cases r .hsRead ({ h with txIn := f }.logTx nak r) <;> rw [ht]
    · refine OnlyProbed.law_of_hsRead ?_ rfl hfail hretry
      exact hprobed.probe rfl (sessionTxLog_append hm rfl rfl) rfl rfl rfl rfl
    · exact handshakeLaw_elsewhere (by simp [State.inHandshake]) nofun
  case strayProbe b f hs hb hp =>
    obtain ⟨hprobed, hretry⟩ := hl.hsRead hs
    have hprobe : isProbeAnswer (.got (.byte b)) = true := by simp [isProbeAnswer, hb]
    refine OnlyProbed.law_of_hsNak ?_ rfl hfail hretry
    exact hprobed.answer hprobe (sessionRxLog_append hm rfl rfl) rfl rfl rfl rfl rfl
  case probeTimeout f hs hp hc =>
    obtain ⟨hprobed, hretry⟩ := hl.hsRead hs
    have hcount := retry_succ_toNat hretry
    refine OnlyProbed.law_of_hsNak ?_ rfl hfail (hcount.trans_le hc)
    exact hprobed.answer (e := .got .timeout) rfl (sessionRxLog_append hm rfl rfl) rfl rfl hcount rfl rfl
  case probeCeiling f hs hp hc =>
    obtain ⟨hprobed, hretry⟩ := hl.hsRead hs
    have hcount := retry_succ_toNat hretry
    have hexceeds : h.retry.toNat + 1 = h.params.retryCeiling.val + 1 := by omega
    refine OnlyProbed.law_of_failed ?_ rfl (hcount.trans hexceeds)
    exact hprobed.answer (e := .got .timeout) rfl (sessionRxLog_append hm rfl rfl) rfl rfl hcount rfl rfl
  case endsTransfer r f hs hc hp | naksBlock r f hs hp => exact handshakeLaw_txDone r ⟨nofun, nofun⟩ hne
  case readFails hr hp => exact handshakeLaw_elsewhere (not_or.2 ⟨nofun, nofun⟩) hr.reason_ne_handshakeTimeout
  case storeFails | ackFails => exact handshakeLaw_elsewhere (not_or.2 ⟨nofun, nofun⟩) nofun
  all_goals exact handshakeLaw_elsewhere (not_or.2 ⟨nofun, nofun⟩) hne

theorem step_handshakeLaw (hstep : step s = .next t) (hi : Inv s) (hm : MarksWithin s) (hl : HandshakeLaw s) :
    HandshakeLaw t := by
  obtain ⟨-, rfl⟩ | ⟨-, -, -, rfl⟩ | ⟨-, hw⟩ := step_next_cases hstep
  · exact handshakeLaw_elsewhere (not_or.2 ⟨nofun, nofun⟩) nofun
  · exact (onlyProbed_startSession _).law_of_hsNak rfl rfl (Nat.zero_le _)
  · exact hw.handshakeLaw hi.hostTaken hm (hl.congr rfl rfl rfl rfl rfl rfl rfl rfl rfl)

end

/-- Settles O50: a session begins with nothing read or sent, each NAK and each answer of the loop moves the counts
together, and every other step is outside the handshake. -/
theorem stepKeepsTheHandshakeLaw : Obligations.StepKeepsTheHandshakeLaw := by
  intro s t hi hm hl hstep
  exact step_handshakeLaw hstep hi hm hl

end Sys2Proof.Machine
end

section
/-!
SUPPORT. What a transmission answered with success or failure comes to (R177), and the rows of the handshake with it
(`40_handshake.md` R101 to R104).
-/
namespace Sys2Proof.Machine

section
variable {s : State}

theorem txWrite_of_response {b : Byte} {after : TxResponse → State → State} {r : TxResponse} {f : Feed TxResponse}
    (hp : s.txIn.pull = (some r, f)) : txWrite b after s = .next (after r ({ s with txIn := f }.logTx b r)) := by
  unfold txWrite
  rw [hp]

theorem txGoesOn_iff {r : TxResponse} : s.txGoesOn r = true ↔ r = .ok ∨ s.params.txFailPolicy = .ignore := by
  simp [txGoesOn_eq]

/-- `tx_done` by the response and the policy (rule R177). -/
theorem txDone_eq_ite (r : TxResponse) (c : Ctl) (s : State) :
    s.txDone r c =
      if r = .ok ∨ s.params.txFailPolicy = .ignore then s.advance c else s.raise .txWriteError := by
  simp only [State.txDone, txGoesOn_iff]

theorem isControlByte_eq_false {b : Byte} (hsoh : b ≠ soh) (heot : b ≠ eot) : isControlByte b = false := by
  rw [Bool.eq_false_iff, ne_eq, isControlByte_iff]
  exact not_or.2 ⟨hsoh, heot⟩

end

/-- Settles O8: the channel's answer ends the write by `tx_done`. -/
theorem handshakeProbeSendsNak : Obligations.HandshakeProbeSendsNak := by
  intro s r f hs hp
  have hexec : exec .txNak s = txWrite nak (fun r t => t.txDone r .hsRead) s := by simp only [exec, execTxNak, hs]
  rw [hexec, txWrite_of_response hp, txDone_eq_ite]
  rfl

/-- Settles O9: the count that is written is the one compared with the ceiling. -/
theorem handshakeTimeoutCountsToTheCeiling : Obligations.HandshakeTimeoutCountsToTheCeiling := by
  intro s hs
  have hcount : BitVec.ofNat 8 (s.retry.toNat + 1) = s.retry + 1 := by simp [BitVec.ofNat_add]
  refine (inState_of_state hs).trans ?_
  rw [hcount]
  rfl

/-- Settles O10: both rows accept their control byte. -/
theorem handshakeControlByteIsCarried : Obligations.HandshakeControlByteIsCarried := by
  intro s hs
  exact ⟨inState_of_state hs, inState_of_state hs⟩

/-- Settles O11: a byte that is neither SOH nor EOT is the row's own. -/
theorem handshakeStrayByteIsIgnored : Obligations.HandshakeStrayByteIsIgnored := by
  intro s b hs hsoh heot
  have hstray : isControlByte b = false := isControlByte_eq_false hsoh heot
  show execHsStray b s = _
  rw [execHsStray, hstray]
  exact inState_of_state hs

end Sys2Proof.Machine
end

section
/-!
SUPPORT. A feed's answers in order, and the handshake and the inter-block wait run over them under a quiet CTRL port
(`40_handshake.md` R105 to R107, `43_interblock.md` R163).
-/
namespace Sys2Proof.Machine

/-! ## A feed's answers in order -/

section
variable {α : Type} {f k : Feed α} {l m : List α}

/-- The feed's next answers are those of the list, at once and in order, and `g` is the feed after them. -/
def Feed.Gives : List α → Feed α → Feed α → Prop
  | [], f, g => g = f
  | a :: l, f, g => ∃ mid : Feed α, f.pull = (some a, mid) ∧ Feed.Gives l mid g

theorem Feed.gives_append : Feed.Gives (l ++ m) f k ↔ ∃ mid : Feed α, Feed.Gives l f mid ∧ Feed.Gives m mid k := by
  induction l generalizing f with
  | nil => simp [Feed.Gives]
  | cons a l ih =>
    simp only [List.cons_append, Feed.Gives, ih]
    exact ⟨fun ⟨n, hp, mid, hl, hm⟩ => ⟨mid, ⟨n, hp, hl⟩, hm⟩, fun ⟨mid, ⟨n, hp, hl⟩, hm⟩ => ⟨n, hp, mid, hl, hm⟩⟩

/-- The answers that stand in a queue come in its order. -/
theorem Feed.gives_of_queue {rest : List (Option α)} (hq : f.queue = l.map some ++ rest) :
    Feed.Gives l f { f with queue := rest } := by
  induction l generalizing f with
  | nil => cases f; cases hq; rfl
  | cons a l ih => exact ⟨_, pull_eq_of_queue hq, ih rfl⟩

/-- A list that comes over and over is as it was after each time (rule R214). -/
theorem Feed.gives_endless (l : List α) : Feed.Gives l (Feed.endless l) (Feed.endless l) := by
  cases l with
  | nil => rfl
  | cons a l => exact ⟨_, rfl, Feed.gives_of_queue (List.append_nil _).symm⟩

theorem Feed.gives_endless_flatten (l : List α) (n : Nat) :
    Feed.Gives (List.replicate n l).flatten (Feed.endless l) (Feed.endless l) := by
  induction n with
  | zero => rfl
  | succ n ih => exact Feed.gives_append.2 ⟨_, Feed.gives_endless l, ih⟩

end

/-! ## One round of the handshake -/

section
variable {s : State}

/-- A run under a quiet CTRL port begins with the controller state's work. -/
theorem run_succ_of_works {t u : State} {n : Nat} (hq : s.quietHost) (hw : Works s t)
    (hrun : core.run n t = .next u) : core.run (n + 1) s = .next u :=
  (run_succ_of_step (step_of_works_quiet hq hw) n).trans hrun

/-- With `TxOk` answers the probe is sent whatever the policy (rule R101). -/
theorem works_probe_ok (hs : s.state = .hsNak) (htx : s.txIn = Feed.always .ok) :
    Works s ((s.logTx nak .ok).advance .hsRead) := by
  have hp : s.txIn.pull = (some .ok, s.txIn) := by rw [htx]; rfl
  exact .probes hs hp

/-- A round of the handshake: a NAK answered `TxOk`, and the channel's answer `r`, which leaves the feed `f`. -/
def State.probed (r : RxResponse) (f : Feed RxResponse) (s : State) : State :=
  { s.logTx nak .ok with rxIn := f }.logRx r

/-- The same with the timeout counted (rule R102). -/
def State.probedInVain (f : Feed RxResponse) (s : State) : State :=
  { s.probed .timeout f with retry := BitVec.ofNat 8 (s.retry.toNat + 1) }

/-- A probe and the stray byte that answers it (rule R104). -/
theorem run_probe_stray {b : Byte} {f : Feed RxResponse} (hq : s.quietHost) (hs : s.state = .hsNak)
    (htx : s.txIn = Feed.always .ok) (hb : isControlByte b = false) (hp : s.rxIn.pull = (some (.byte b), f)) :
    core.run 2 s = .next ((s.probed (.byte b) f).advance .hsNak) :=
  run_succ_of_works hq (works_probe_ok hs htx) (run_succ_of_works hq (.strayProbe rfl hb hp) rfl)

/-- A probe and the timeout that answers it, below the ceiling (rule R102). -/
theorem run_probe_timeout {f : Feed RxResponse} (hq : s.quietHost) (hs : s.state = .hsNak)
    (htx : s.txIn = Feed.always .ok) (hp : s.rxIn.pull = (some .timeout, f))
    (hc : s.retry.toNat + 1 ≤ s.params.retryCeiling.val) :
    core.run 2 s = .next ((s.probedInVain f).advance .hsNak) :=
  run_succ_of_works hq (works_probe_ok hs htx) (run_succ_of_works hq (.probeTimeout rfl hp hc) rfl)

/-- A probe and the timeout that passes the ceiling (rule R102). -/
theorem run_probe_ceiling {f : Feed RxResponse} (hq : s.quietHost) (hs : s.state = .hsNak)
    (htx : s.txIn = Feed.always .ok) (hp : s.rxIn.pull = (some .timeout, f))
    (hc : s.params.retryCeiling.val < s.retry.toNat + 1) :
    core.run 2 s = .next ((s.probedInVain f).raise .handshakeTimeout) :=
  run_succ_of_works hq (works_probe_ok hs htx) (run_succ_of_works hq (.probeCeiling rfl hp hc) rfl)

end

/-! ## A silent sender -/

/-- Each timeout sends a NAK and counts, up to the ceiling; the one after it fails (rules R105, R106). -/
theorem run_silent (n : Nat) {s : State} (hq : s.quietHost) (hs : s.state = .hsNak)
    (hn : s.params.retryCeiling.val = s.retry.toNat + n) (htx : s.txIn = Feed.always .ok)
    (hrx : s.rxIn = Feed.always .timeout) :
    ∃ t : State, core.run (2 * (n + 1)) s = .next t ∧ t.state = .failed ∧ t.fail = .handshakeTimeout ∧
      t.retry.toNat = s.params.retryCeiling.val + 1 ∧
      t.txLog = s.txLog ++ List.replicate (n + 1) (nak, .got .ok) ∧ t.sinkTrace = s.sinkTrace ∧
      t.expBlk = s.expBlk := by
  have hp : s.rxIn.pull = (some .timeout, s.rxIn) := by rw [hrx]; rfl
  have hcount := retry_succ_toNat (Nat.le.intro hn.symm)
  induction n generalizing s with
  | zero => exact ⟨_, run_probe_ceiling hq hs htx hp (by omega), rfl, rfl, by rw [hn]; exact hcount, rfl, rfl, rfl⟩
  | succ n ih =>
    have hround := run_probe_timeout hq hs htx hp (by omega)
    have hleft : s.params.retryCeiling.val = (BitVec.ofNat 8 (s.retry.toNat + 1)).toNat + n := by omega
    obtain ⟨t, hrun, hst, hf, hr, hlog, hsink, hexp⟩ := ih (s := (s.probedInVain s.rxIn).advance .hsNak) hq rfl hleft
      htx hrx hp (retry_succ_toNat (Nat.le.intro hleft.symm))
    refine ⟨t, ?_, hst, hf, hr, ?_, hsink, hexp⟩
    · rw [show 2 * (n + 1 + 1) = 2 + 2 * (n + 1) by omega, run_add_of_run hround, hrun]
    · rw [hlog, List.replicate_succ (n := n + 1)]
      exact List.append_assoc ..

/-- Settles O57: the ceiling allows as many rounds as it exceeds `retry`, and one more fails. -/
theorem silentSenderFailsTheHandshake : Obligations.SilentSenderFailsTheHandshake := by
  intro s hq hs hr htx hrx
  obtain ⟨n, hn⟩ := Nat.exists_eq_add_of_le hr
  have hrounds : s.params.retryCeiling.val + 1 - s.retry.toNat = n + 1 := by omega
  rw [hrounds]
  exact run_silent n hq hs hn htx hrx

/-! ## Stray bytes -/

section
variable {s : State} {bytes : List Byte} {g : Feed RxResponse}

/-- A stray byte for each probe keeps the handshake going, and `retry` does not move (rule R107). -/
theorem run_probe_strays (hq : s.quietHost) (hs : s.state = .hsNak) (htx : s.txIn = Feed.always .ok)
    (hstray : ∀ b ∈ bytes, isControlByte b = false) (hrx : Feed.Gives (bytes.map .byte) s.rxIn g) :
    ∃ t : State, core.run (2 * bytes.length) s = .next t ∧ t.state = .hsNak ∧ t.retry = s.retry ∧
      t.txLog = s.txLog ++ List.replicate bytes.length (nak, .got .ok) ∧
      t.rxLog = s.rxLog ++ bytes.map (fun b => .got (.byte b)) ∧ t.rxIn = g := by
  induction bytes generalizing s with
  | nil => exact ⟨s, rfl, hs, rfl, (List.append_nil _).symm, (List.append_nil _).symm, hrx.symm⟩
  | cons b bytes ih =>
    obtain ⟨mid, hp, hrx⟩ := hrx
    obtain ⟨hb, hstray⟩ := List.forall_mem_cons.1 hstray
    have hround := run_probe_stray hq hs htx hb hp
    obtain ⟨t, hrun, hst, hr, htxLog, hrxLog, hin⟩ :=
      ih (s := (s.probed (.byte b) mid).advance .hsNak) hq rfl htx hstray hrx
    refine ⟨t, ?_, hst, hr, ?_, ?_, hin⟩
    · rw [List.length_cons, show 2 * (bytes.length + 1) = 2 + 2 * bytes.length by omega, run_add_of_run hround, hrun]
    · rw [htxLog, List.length_cons, List.replicate_succ]
      exact List.append_assoc ..
    · rw [hrxLog, List.map_cons]
      exact List.append_assoc ..

/-- Between blocks a stray byte is read and nothing else happens (rules R162, R163). -/
theorem run_next_strays (hq : s.quietHost) (hs : s.state = .nextCtrl)
    (hstray : ∀ b ∈ bytes, isControlByte b = false) (hrx : Feed.Gives (bytes.map .byte) s.rxIn g) :
    ∃ t : State, core.run bytes.length s = .next t ∧ t.state = .nextCtrl ∧ t.txLog = s.txLog ∧ t.fail = s.fail ∧
      t.rxLog = s.rxLog ++ bytes.map (fun b => .got (.byte b)) ∧ t.rxIn = g := by
  induction bytes generalizing s with
  | nil => exact ⟨s, rfl, hs, rfl, rfl, (List.append_nil _).symm, hrx.symm⟩
  | cons b bytes ih =>
    obtain ⟨mid, hp, hrx⟩ := hrx
    obtain ⟨hb, hstray⟩ := List.forall_mem_cons.1 hstray
    obtain ⟨t, hrun, hst, htxLog, hf, hrxLog, hin⟩ :=
      ih (s := ({ s with rxIn := mid }.logRx (.byte b)).advance .nextCtrl) hq rfl hstray hrx
    refine ⟨t, ?_, hst, htxLog, hf, ?_, hin⟩
    · exact run_succ_of_works hq (.strayBetween hs hb hp) hrun
    · rw [hrxLog, List.map_cons]
      exact List.append_assoc ..

end

end Sys2Proof.Machine
end

section
/-!
SUPPORT. Runs over whole frames under a quiet CTRL port: the frame's bytes in their registers (`41_control_and_frame.md`
R121 to R126), its answer (`42_validation.md` R143 to R150), and any list of frames.
-/
namespace Sys2Proof.Machine

/-! ## The payload -/

section
variable {α : Type} {n : Nat}

/-- The bytes of a list written one after another, the first at position `i`. -/
def storeFrom (i : Nat) : List α → Vector α n → Vector α n
  | [], v => v
  | a :: l, v => storeFrom (i + 1) l (v.setIfInBounds i a)

theorem storeFrom_concat (i : Nat) (l : List α) (a : α) (v : Vector α n) :
    storeFrom i (l ++ [a]) v = (storeFrom i l v).setIfInBounds (i + l.length) a := by
  induction l generalizing i v with
  | nil => rfl
  | cons b l ih => exact (ih (i + 1) _).trans (by rw [List.length_cons, Nat.add_right_comm, Nat.add_assoc]; rfl)

/-- What is written lies between what stood before it and after it. -/
theorem toList_storeFrom {i : Nat} {l : List α} {v : Vector α n} (hl : i + l.length ≤ n) :
    (storeFrom i l v).toList = v.toList.take i ++ l ++ v.toList.drop (i + l.length) := by
  induction l generalizing i v with
  | nil => simp [storeFrom]
  | cons a l ih =>
    rw [List.length_cons] at hl
    have hi : i < v.toList.length := by rw [Vector.length_toList]; omega
    rw [storeFrom, ih (by omega), Vector.toList_setIfInBounds, List.take_add_one, List.take_set_of_le (Nat.le_refl i),
      List.getElem?_set_self hi, List.drop_set_of_lt (by omega)]
    simp [Nat.add_assoc, Nat.add_comm 1]

/-- All positions but the last and then the last one replace whatever stood there. -/
theorem setIfInBounds_storeFrom {p : Vector α n} {l : List α} {a : α} (hp : p.toList = l ++ [a]) (v : Vector α n) :
    (storeFrom 0 l v).setIfInBounds l.length a = p := by
  have hlen : (l ++ [a]).length = n := by rw [← hp, Vector.length_toList]
  have hconcat := storeFrom_concat 0 l a v
  rw [Nat.zero_add] at hconcat
  rw [← hconcat, ← Vector.toList_inj, toList_storeFrom (by omega), hp, Nat.zero_add, hlen]
  simp

end

section
variable {s : State} {g : Feed RxResponse}

/-- `RX_PAYLOAD` after these bytes more of the payload, from `idx` on, with `g` the channel's feed after them. -/
def State.receivePayload (bytes : List Byte) (g : Feed RxResponse) (s : State) : State :=
  { s with
    state := .rxPayload, idx := s.idx + BitVec.ofNat 8 bytes.length, buf := storeFrom s.idx.toNat bytes s.buf
    held := { s.held with buf := storeFrom s.idx.toNat (List.replicate bytes.length true) s.held.buf }
    event := .none, outstanding := none, rxIn := g, rxLog := s.rxLog ++ bytes.map (fun b => .got (.byte b)) }

theorem receivePayload_cons {b : Byte} {bytes : List Byte} {f : Feed RxResponse} (hi : s.idx.toNat < 127) :
    (s.receivePayload [b] f).receivePayload bytes g = s.receivePayload (b :: bytes) g := by
  have hidx : (s.idx.toNat + 1) % 256 = s.idx.toNat + 1 := Nat.mod_eq_of_lt (by omega)
  have hlast : s.idx + 1#8 + BitVec.ofNat 8 bytes.length = s.idx + BitVec.ofNat 8 (bytes.length + 1) := by
    rw [BitVec.ofNat_add, BitVec.add_assoc, BitVec.add_comm 1#8]
  simp [State.receivePayload, storeFrom, List.replicate_succ, hidx, hlast]

theorem step_payload {b : Byte} {f : Feed RxResponse} (hq : s.quietHost) (hs : s.state = .rxPayload)
    (hi : s.idx.toNat < 127) (hp : s.rxIn.pull = (some (.byte b), f)) :
    step s = .next (s.receivePayload [b] f) :=
  step_of_works_quiet hq (.readsData hs hi hp)

/-- Payload bytes short of the last go to the buffer, each at its position (rule R124). -/
theorem run_payload {bytes : List Byte} (hq : s.quietHost) (hs : s.state = .rxPayload)
    (hlen : s.idx.toNat + bytes.length ≤ 127) (he : s.event = .none) (ho : s.outstanding = none)
    (hrx : Feed.Gives (bytes.map .byte) s.rxIn g) :
    core.run bytes.length s = .next (s.receivePayload bytes g) := by
  induction bytes generalizing s with
  | nil =>
    cases s
    cases hs
    cases he
    cases ho
    cases hrx
    simp [State.receivePayload, storeFrom]
  | cons b bytes ih =>
    obtain ⟨mid, hp, hrx⟩ := hrx
    rw [List.length_cons] at hlen ⊢
    have hi : s.idx.toNat < 127 := by omega
    have hidx : (s.idx + 1).toNat = s.idx.toNat + 1 := BitVec.toNat_add_of_lt (by simp; omega)
    have hleft : (s.idx + 1).toNat + bytes.length ≤ 127 := by omega
    rw [run_succ_of_step (step_payload hq hs hi hp), ← receivePayload_cons (bytes := bytes) (f := mid) hi]
    exact ih (s := s.receivePayload [b] mid) hq rfl hleft rfl rfl hrx

/-! ## The frame -/

/-- `RX_PAYLOAD` with the header in its registers, and `g` the channel's feed after it (rule R123). -/
def State.receiveHeader (num cmp : Byte) (g : Feed RxResponse) (s : State) : State :=
  { s with
    state := .rxPayload, hdrNum := num, hdrCmp := cmp, idx := 0, event := .none, outstanding := none
    held := { s.held with hdrNum := true, hdrCmp := true }
    rxIn := g, rxLog := s.rxLog ++ [.got (.byte num), .got (.byte cmp)] }

/-- From the dispatch on SOH the header is received in 3 steps (rules R121, R123). -/
theorem run_header {num cmp : Byte} (hq : s.quietHost) (hs : s.state = .awaitCtrl) (hc : s.readCtrl = some soh)
    (hrx : Feed.Gives [.byte num, .byte cmp] s.rxIn g) : core.run 3 s = .next (s.receiveHeader num cmp g) := by
  obtain ⟨f, hnum, f', hcmp, rfl⟩ := hrx
  refine run_succ_of_works hq (.startsFrame hs hc) (run_succ_of_works hq (.readsNumber rfl rfl hnum)
    (run_succ_of_works hq (.readsComplement rfl rfl hcmp) ?_))
  simp [State.receiveHeader, State.advance, State.writeHdrCmp, State.writeHdrNum, State.logRx]

/-- `VALIDATING` with the payload's last byte and the checksum in their registers (rules R124, R125). -/
def State.receiveTrailer (last ck : Byte) (g : Feed RxResponse) (s : State) : State :=
  { s with
    state := .validating, idx := 0, buf := s.buf.setIfInBounds 127 last, rxCk := ck, event := .none
    outstanding := none, held := { s.held with buf := s.held.buf.setIfInBounds 127 true, rxCk := true }
    rxIn := g, rxLog := s.rxLog ++ [.got (.byte last), .got (.byte ck)] }

theorem run_trailer {last ck : Byte} (hq : s.quietHost) (hs : s.state = .rxPayload) (hi : s.idx = 127)
    (hrx : Feed.Gives [.byte last, .byte ck] s.rxIn g) : core.run 2 s = .next (s.receiveTrailer last ck g) := by
  obtain ⟨f, hlast, f', hck, rfl⟩ := hrx
  refine run_succ_of_works hq (.readsLastData hs hi hlast) (run_succ_of_works hq (.readsChecksum rfl hck) ?_)
  simp [State.receiveTrailer, State.advance, State.writeRxCk, State.writeBuf, State.logRx]

/-- `VALIDATING` with a frame in its registers (rules R62, R126), and `g` the channel's feed after it. -/
def State.receiveFrame (f : WireFrame) (g : Feed RxResponse) (s : State) : State :=
  { s with
    state := .validating, hdrNum := f.num, hdrCmp := f.cmp, buf := f.payload, rxCk := f.ck, idx := 0
    event := .none, outstanding := none
    held := { s.held with
      hdrNum := true, hdrCmp := true, rxCk := true, buf := Vector.replicate blockSize true }
    rxIn := g, rxLog := s.rxLog ++ (frame f.num f.cmp f.payload f.ck).map .got }

/-- The three fields of the frame one after another are the whole of it (rule R62). -/
theorem receiveTrailer_receivePayload_receiveHeader {f : WireFrame} {bytes : List Byte} {last : Byte}
    {f1 f2 : Feed RxResponse} (hpayload : f.payload.toList = bytes ++ [last]) (hlen : bytes.length = 127) :
    ((s.receiveHeader f.num f.cmp f1).receivePayload bytes f2).receiveTrailer last f.ck g = s.receiveFrame f g := by
  have hbuf : (storeFrom 0 bytes s.buf).setIfInBounds 127 last = f.payload :=
    hlen ▸ setIfInBounds_storeFrom hpayload s.buf
  have hheld : (storeFrom 0 (List.replicate bytes.length true) s.held.buf).setIfInBounds 127 true =
      Vector.replicate blockSize true := by
    rw [hlen]
    exact setIfInBounds_storeFrom (p := Vector.replicate blockSize true) rfl s.held.buf
  simp [State.receiveTrailer, State.receivePayload, State.receiveHeader, State.receiveFrame, frame, hpayload,
    hbuf, hheld]

/-- A payload is 127 bytes and one more. -/
theorem exists_toList_eq_concat (p : Block) :
    ∃ (bytes : List Byte) (last : Byte), p.toList = bytes ++ [last] ∧ bytes.length = 127 := by
  have hlen : p.toList.length = 127 + 1 := Vector.length_toList
  obtain hnil | ⟨bytes, last, hp⟩ := p.toList.eq_nil_or_concat'
  · simp [hnil] at hlen
  · exact ⟨bytes, last, hp, by simpa [hp] using hlen⟩

/-- From the dispatch on SOH a frame is received in 132 steps (rules R126 item 1, R212). -/
theorem run_frame {f : WireFrame} (hq : s.quietHost) (hs : s.state = .awaitCtrl) (hc : s.readCtrl = some soh)
    (hrx : Feed.Gives (frame f.num f.cmp f.payload f.ck) s.rxIn g) :
    core.run 132 s = .next (s.receiveFrame f g) := by
  obtain ⟨bytes, last, hpayload, hlen⟩ := exists_toList_eq_concat f.payload
  have hframe : frame f.num f.cmp f.payload f.ck =
      [.byte f.num, .byte f.cmp] ++ (bytes.map .byte ++ [.byte last, .byte f.ck]) := by simp [frame, hpayload]
  obtain ⟨f1, hheader, hrest⟩ := Feed.gives_append.1 (hframe ▸ hrx)
  obtain ⟨f2, hbytes, htrailer⟩ := Feed.gives_append.1 hrest
  have hrun : core.run 127 (s.receiveHeader f.num f.cmp f1) = _ :=
    hlen ▸ run_payload (s := s.receiveHeader f.num f.cmp f1) hq rfl (by simp [State.receiveHeader, hlen]) rfl rfl
      hbytes
  rw [show 132 = 3 + (127 + 2) from rfl, run_add_of_run (run_header hq hs hc hheader), run_add_of_run hrun,
    ← receiveTrailer_receivePayload_receiveHeader hpayload hlen]
  exact run_trailer hq rfl (by simp [State.receivePayload, State.receiveHeader, hlen]) htrailer

/-! ## The answer -/

/-- `NEXT_CTRL` after a block was stored and acknowledged (rules R144, R145). -/
def State.acknowledged (s : State) : State :=
  { s with
    state := .nextCtrl, verdict := .accept, expBlk := s.expBlk + 1, event := .none, outstanding := none
    sinkTrace := s.sinkTrace ++ [(s.buf, .got .ok)], txLog := s.txLog ++ [(ack, .got .ok)] }

/-- `NEXT_CTRL` after a block was rejected for the reason `v` (rules R143, R146). -/
def State.rejected (v : Verdict) (s : State) : State :=
  { s with
    state := .nextCtrl, verdict := v, event := .none, outstanding := none, txLog := s.txLog ++ [(nak, .got .ok)] }

/-- A frame whose checks pass is stored and acknowledged in 3 steps (rules R148, R150). -/
theorem run_accept {n c k : Byte} (hq : s.quietHost) (hs : s.state = .validating) (hh : s.readHeader = some (n, c))
    (hb : s.readBuf = some s.buf) (hk : s.readRxCk = some k) (htx : s.txIn = Feed.always .ok)
    (hsink : s.sinkIn = Feed.always .ok) (hc : hdrOk n c = true) (hck : ckOk s.buf k = true) :
    core.run 3 s = .next s.acknowledged := by
  have hput : s.sinkIn.pull = (some .ok, s.sinkIn) := by rw [hsink]; rfl
  have hack : s.txIn.pull = (some .ok, s.txIn) := by rw [htx]; rfl
  exact run_succ_of_works hq (.accepts hs hh hc hb hk hck) (run_succ_of_works hq (.stores rfl hb hput)
    (run_succ_of_works hq (.acksBlock rfl hack rfl) rfl))

/-- A frame whose checks fail gets one NAK, in 2 steps (rules R148, R150). -/
theorem run_reject {n c k : Byte} (hq : s.quietHost) (hs : s.state = .validating) (hh : s.readHeader = some (n, c))
    (hb : s.readBuf = some s.buf) (hk : s.readRxCk = some k) (htx : s.txIn = Feed.always .ok)
    (hbad : (hdrOk n c && ckOk s.buf k) = false) :
    core.run 2 s = .next (s.rejected (if hdrOk n c then .checksumError else .blockNumberMismatch)) := by
  have hnak : s.txIn.pull = (some .ok, s.txIn) := by rw [htx]; rfl
  cases hc : hdrOk n c
  · exact run_succ_of_works hq (.rejectsHeader hs hh hc) (run_succ_of_works hq (.naksBlock rfl hnak) rfl)
  · have hck : ckOk s.buf k = false := by simpa [hc] using hbad
    exact run_succ_of_works hq (.rejectsChecksum hs hh hc hb hk hck) (run_succ_of_works hq (.naksBlock rfl hnak) rfl)

end

/-! ## Any list of frames -/

section
variable {s t u : State} {f : WireFrame} {fs gs : List WireFrame} {g : Feed RxResponse}

/-- Each frame of the list was answered, the valid ones were stored in order and counted, and neither the failure reason
nor `retry` moved (rules R145 to R147). -/
structure Answered (fs : List WireFrame) (s t : State) : Prop where
  state : t.state = .nextCtrl
  hostIn : t.hostIn = s.hostIn
  txIn : t.txIn = s.txIn
  sinkIn : t.sinkIn = s.sinkIn
  fail : t.fail = s.fail
  retry : t.retry = s.retry
  txLog : t.txLog = s.txLog ++ fs.map (fun f => (f.reply, .got .ok))
  sinkTrace : t.sinkTrace = s.sinkTrace ++ (fs.filter WireFrame.valid).map (fun f => (f.payload, .got .ok))
  expBlk : t.expBlk = s.expBlk + BitVec.ofNat 8 (fs.filter WireFrame.valid).length

theorem Answered.nil (hs : s.state = .nextCtrl) : Answered [] s s := by
  constructor <;> simp [hs]

theorem Answered.append (hst : Answered fs s t) (htu : Answered gs t u) : Answered (fs ++ gs) s u where
  state := htu.state
  hostIn := htu.hostIn.trans hst.hostIn
  txIn := htu.txIn.trans hst.txIn
  sinkIn := htu.sinkIn.trans hst.sinkIn
  fail := htu.fail.trans hst.fail
  retry := htu.retry.trans hst.retry
  txLog := by rw [htu.txLog, hst.txLog, List.map_append, List.append_assoc]
  sinkTrace := by rw [htu.sinkTrace, hst.sinkTrace, List.filter_append, List.map_append, List.append_assoc]
  expBlk := by rw [htu.expBlk, hst.expBlk, List.filter_append, List.length_append, BitVec.ofNat_add, BitVec.add_assoc]

/-- The steps from `VALIDATING` to the next `NEXT_CTRL` (rules R143 to R146). -/
def WireFrame.answerSteps (f : WireFrame) : Nat := if f.valid then 3 else 2

theorem WireFrame.steps_eq (f : WireFrame) : f.steps = 133 + f.answerSteps := by
  unfold WireFrame.steps WireFrame.answerSteps
  split <;> rfl

/-- A frame in its registers gets its answer, whether its checks pass or not (rule R150). -/
theorem run_answer (hq : s.quietHost) (hs : s.state = .validating) (hh : s.readHeader = some (f.num, f.cmp))
    (hb : s.readBuf = some f.payload) (hk : s.readRxCk = some f.ck) (htx : s.txIn = Feed.always .ok)
    (hsink : s.sinkIn = Feed.always .ok) :
    ∃ t : State, core.run f.answerSteps s = .next t ∧ Answered [f] s t ∧ t.rxIn = s.rxIn := by
  have hbuf : s.buf = f.payload := (readBuf_eq_some.1 hb).2
  unfold WireFrame.answerSteps
  cases hvalid : f.valid
  · refine ⟨_, run_reject hq hs hh (hbuf ▸ hb) hk htx (hbuf ▸ hvalid), ?_, rfl⟩
    constructor <;> simp [State.rejected, WireFrame.reply, hvalid]
  · obtain ⟨hc, hck⟩ := Bool.and_eq_true_iff.1 hvalid
    refine ⟨_, run_accept hq hs hh (hbuf ▸ hb) hk htx hsink hc (hbuf ▸ hck), ?_, rfl⟩
    constructor <;> simp [State.acknowledged, WireFrame.reply, hvalid, hbuf]

theorem readBuf_receiveFrame (s : State) : (s.receiveFrame f g).readBuf = some f.payload :=
  readBuf_eq_some.2 ⟨fun i => Vector.getElem_replicate i.isLt, rfl⟩

/-- A frame on the wire is answered in its steps, from one `NEXT_CTRL` to the next (rule R212). -/
theorem run_wireFrame (hq : s.quietHost) (hs : s.state = .nextCtrl) (htx : s.txIn = Feed.always .ok)
    (hsink : s.sinkIn = Feed.always .ok) (hrx : Feed.Gives f.wire s.rxIn g) :
    ∃ t : State, core.run f.steps s = .next t ∧ Answered [f] s t ∧ t.rxIn = g := by
  obtain ⟨mid, hsoh, hframe⟩ := hrx
  have hreceived : core.run 133 s = .next (({ s with rxIn := mid }.acceptCtrl soh).receiveFrame f g) :=
    run_succ_of_works hq (.takesControl (.inr hs) rfl hsoh) (run_frame hq rfl rfl hframe)
  obtain ⟨t, hrun, ht, hin⟩ := run_answer (f := f) (s := ({ s with rxIn := mid }.acceptCtrl soh).receiveFrame f g) hq
    rfl rfl (readBuf_receiveFrame _) rfl htx hsink
  refine ⟨t, ?_, ⟨ht.state, ht.hostIn, ht.txIn, ht.sinkIn, ht.fail, ht.retry, ht.txLog, ht.sinkTrace, ht.expBlk⟩, hin⟩
  rw [WireFrame.steps_eq, run_add_of_run hreceived, hrun]

/-- Frames one after another are answered one after another (rules R150 item 4, R214). -/
theorem run_wireFrames (hq : s.quietHost) (hs : s.state = .nextCtrl) (htx : s.txIn = Feed.always .ok)
    (hsink : s.sinkIn = Feed.always .ok) (hrx : Feed.Gives (fs.flatMap WireFrame.wire) s.rxIn g) :
    ∃ t : State, core.run (fs.map WireFrame.steps).sum s = .next t ∧ Answered fs s t ∧ t.rxIn = g := by
  induction fs generalizing s with
  | nil => exact ⟨s, rfl, .nil hs, hrx.symm⟩
  | cons f fs ih =>
    obtain ⟨mid, hf, hfs⟩ := Feed.gives_append.1 hrx
    obtain ⟨u, hrun, hu, rfl⟩ := run_wireFrame hq hs htx hsink hf
    obtain ⟨t, hrest, ht, hin⟩ := ih (hu.hostIn.trans hq) hu.state (hu.txIn.trans htx) (hu.sinkIn.trans hsink) hfs
    exact ⟨t, (run_add_of_run hrun _).trans hrest, hu.append ht, hin⟩

end

theorem flatMap_flatten_replicate {α β : Type} (h : α → List β) (l : List α) (n : Nat) :
    (List.replicate n l).flatten.flatMap h = (List.replicate n (l.flatMap h)).flatten := by
  simp [List.flatMap, List.map_flatten, List.flatten_flatten]

/-- Settles O58: the input is as it was after each repetition of the list, and each byte or frame of it leads back to
the state that reads the next one. -/
theorem endlessInputNeverEnds : Obligations.EndlessInputNeverEnds := by
  intro s n hq
  refine ⟨fun bytes hbytes hrx => ?_, fun frames hrx hs htx hsink => ?_⟩
  · have hstray : ∀ b ∈ (List.replicate n bytes).flatten, isControlByte b = false := by
      intro b hb
      obtain ⟨l, hl, hb⟩ := List.mem_flatten.1 hb
      obtain ⟨hsoh, heot⟩ := hbytes b (List.eq_of_mem_replicate hl ▸ hb)
      exact isControlByte_eq_false hsoh heot
    have hgives : Feed.Gives ((List.replicate n bytes).flatten.map .byte) s.rxIn s.rxIn := by
      rw [hrx, List.map_flatten, List.map_replicate]
      exact Feed.gives_endless_flatten _ n
    have hlen : (List.replicate n bytes).flatten.length = n * bytes.length := by simp
    rw [← hlen]
    exact ⟨fun hs htx => run_probe_strays hq hs htx hstray hgives, fun hs => run_next_strays hq hs hstray hgives⟩
  · have hgives : Feed.Gives ((List.replicate n frames).flatten.flatMap WireFrame.wire) s.rxIn s.rxIn := by
      rw [hrx, flatMap_flatten_replicate]
      exact Feed.gives_endless_flatten _ n
    have hsteps : ((List.replicate n frames).flatten.map WireFrame.steps).sum =
        n * (frames.map WireFrame.steps).sum := by
      simp
    have hvalid : ((List.replicate n frames).flatten.filter WireFrame.valid).length =
        n * (frames.filter WireFrame.valid).length := by
      simp
    obtain ⟨t, hrun, ht, hin⟩ := run_wireFrames hq hs htx hsink hgives
    exact ⟨t, hsteps ▸ hrun, ht.state, ht.fail, hin, ht.txLog, ht.sinkTrace, hvalid ▸ ht.expBlk⟩

end Sys2Proof.Machine
end

section
/-!
SUPPORT. What each row of dispatch and of the frame receiver comes to in its state (`41_control_and_frame.md` R120 to
R125), where a step in a state no run meets stops (R122, R186, R45), and the frame's runs (R126).
-/
namespace Sys2Proof.Machine

/-! ## The rows -/

section
variable {s : State} {k : Result}

/-- A row of a frame field met within the field (rules R123, R124). -/
theorem inState_inField_of_lt {c : Ctl} {n : Nat} (hs : s.state = c) (hi : s.idx.toNat < n) :
    s.inState c (s.inField n k) = k :=
  (inState_of_state hs).trans (inField_of_lt hi)

/-- On an EOT the row is the write of its ACK (rule R120). -/
theorem exec_acEot_eq_txWrite (hs : s.state = .awaitCtrl) (hc : s.readCtrl = some eot) :
    exec .acEot s = txWrite ack (fun r t => t.txDone r .complete) s :=
  dispatchOn_of_ctrl hs hc

/-- The other row that R120 names for the step is the same step (log entry 13). -/
theorem exec_txAck_of_awaitCtrl (hs : s.state = .awaitCtrl) : exec .txAck s = exec .acEot s := by
  simp only [exec, execTxAck, execAcEot, hs]

end

/-- Settles O12: `ctrl` selects the row, and the channel's answer ends the write by `tx_done`. -/
theorem eotIsAcknowledgedAndCompletes : Obligations.EotIsAcknowledgedAndCompletes := by
  intro s r f hs hheld hc hp
  have hread : s.readCtrl = some eot := readCtrl_eq_some.2 ⟨hheld, hc⟩
  refine ⟨?_, exec_txAck_of_awaitCtrl hs⟩
  rw [exec_acEot_eq_txWrite hs hread, txWrite_of_response hp, txDone_eq_ite]
  rfl

/-- Settles O13: `ctrl` selects the row. -/
theorem sohStartsAFrame : Obligations.SohStartsAFrame := by
  intro s hs hheld hc
  have hread : s.readCtrl = some soh := readCtrl_eq_some.2 ⟨hheld, hc⟩
  exact dispatchOn_of_ctrl hs hread

/-- Settles O15: `idx` is within the header, and says which of its two bytes is read. -/
theorem headerBytesAreReceived : Obligations.HeaderBytesAreReceived := by
  intro s b hs
  refine ⟨fun hi => ?_, fun hi => ?_, fun hi => ?_⟩
  · refine (inState_inField_of_lt hs (by simp [hi])).trans ?_
    dsimp only
    rw [if_pos hi, ← hs]
    rfl
  · refine (inState_inField_of_lt hs (by simp [hi])).trans ?_
    dsimp only
    rw [if_neg (by simp [hi])]
    rfl
  · exact inState_inField_of_lt hs (by obtain hi | hi := hi <;> simp [hi])

/-- Settles O16: `idx` is within the payload, and the byte goes to its position. -/
theorem payloadBytesAreReceived : Obligations.PayloadBytesAreReceived := by
  intro s b hs
  refine ⟨fun hi => ?_, fun hi => ?_, fun hi => ?_⟩
  · have hne : s.idx ≠ 127 := by rintro h; simp [h] at hi
    refine (inState_inField_of_lt hs (hi.trans (by decide))).trans ?_
    dsimp only
    rw [if_neg hne, ← hs]
    rfl
  · have hlast : s.idx.toNat = 127 := by simp [hi]
    refine (inState_inField_of_lt hs (by rw [hlast]; decide)).trans ?_
    dsimp only
    rw [if_pos hi, hlast]
    rfl
  · exact inState_inField_of_lt hs (Nat.lt_succ_of_le hi)

/-- Settles O17: both rows run in `RX_CHECKSUM` whatever `idx` is. -/
theorem checksumByteIsReceived : Obligations.ChecksumByteIsReceived := by
  intro s b hs
  exact ⟨inState_of_state hs, inState_of_state hs⟩

/-! ## Where a step stops -/

section
variable {s : State}

theorem step_of_awaitCtrl {b : Byte} (hq : s.proceeds) (hs : s.state = .awaitCtrl) (hc : s.readCtrl = some b) :
    step s = runSymbol .ac [b] s.hostTaken := by
  have hread : s.hostTaken.readCtrl = some b := hc
  rw [step_of_proceeds hq]
  simp only [State.fetchByState, State.hostTaken_state, hs, hread, Fetched.outcome]

/-- A step whose state has no symbol to decode comes to what the state settles. -/
theorem step_of_settled {r : Result} (hq : s.proceeds) (hf : s.hostTaken.fetchByState = .settled r) : step s = r := by
  rw [step_of_proceeds hq, hf, Fetched.outcome]

/-- A `ctrl` that is neither SOH nor EOT decodes to `AC.OTHER` (rules R82, R122). -/
theorem step_awaitCtrl_of_other {b : Byte} (hq : s.proceeds) (hs : s.state = .awaitCtrl) (hc : s.readCtrl = some b)
    (hb : isControlByte b = false) : step s = .fault .modelUnreachable := by
  have hd : decode .ac [b] = .ok (.acOther b) := by simp only [decode, decodeAc, decodeCtrl_of_stray hb]
  rw [step_of_awaitCtrl hq hs hc, runSymbol_ok hd]
  rfl

theorem step_of_reserved (hq : s.proceeds) (hs : s.state = .reserved14 ∨ s.state = .reserved15) :
    step s = .fault .modelUnreachable := by
  refine step_of_settled hq ?_
  obtain hs | hs := hs <;> simp only [State.fetchByState, State.hostTaken_state, hs]

theorem step_awaitCtrl_of_unspecified (hq : s.proceeds) (hs : s.state = .awaitCtrl) (hc : s.held.ctrl = false) :
    step s = .fault .unspecifiedRead := by
  have hread : s.hostTaken.readCtrl = none := by simp [State.readCtrl, hc]
  refine step_of_settled hq ?_
  simp only [State.fetchByState, State.hostTaken_state, hs, hread]

theorem step_validating_of_unspecified_header (hq : s.proceeds) (hs : s.state = .validating)
    (hnone : s.held.hdrNum = false ∨ s.held.hdrCmp = false) : step s = .fault .unspecifiedRead := by
  have hread : s.hostTaken.readHeader = none := by obtain hn | hn := hnone <;> simp [State.readHeader, hn]
  rw [step_of_validating hq hs, validate, hread]

theorem step_accWrite_of_unspecified (hq : s.proceeds) (hs : s.state = .accWrite)
    (hnone : ∃ i : Fin blockSize, s.held.buf[i] = false) : step s = .fault .unspecifiedRead := by
  have hread : s.hostTaken.readBuf = none := readBuf_eq_none hnone
  refine step_of_settled hq ?_
  simp only [State.fetchByState, State.hostTaken_state, hs, hread]

end

/-- Settles O14: clause by clause, from what the state's step reads or decodes. -/
theorem unreachableStatesFault : Obligations.UnreachableStatesFault := by
  refine ⟨fun _ _ => rfl, fun s hq => ⟨?_, step_of_reserved hq, step_awaitCtrl_of_unspecified hq,
    step_validating_of_unspecified_header hq, step_accWrite_of_unspecified hq⟩⟩
  intro hs hheld hsoh heot
  exact step_awaitCtrl_of_other hq hs (readCtrl_eq_some.2 ⟨hheld, rfl⟩) (isControlByte_eq_false hsoh heot)

/-! ## The frame -/

/-- Settles O53: the bytes stand in the channel's queue, and each goes to its register. -/
theorem frameIsReceivedIn132Steps : Obligations.FrameIsReceivedIn132Steps := by
  intro s n c k p rest hq hs hheld hc hrx
  have hread : s.readCtrl = some soh := readCtrl_eq_some.2 ⟨hheld, hc⟩
  have hrun := run_frame (f := ⟨n, c, p, k⟩) hq hs hread (Feed.gives_of_queue hrx)
  exact ⟨_, hrun, rfl, rfl, rfl, rfl, rfl, rfl, rfl, rfl, rfl, rfl, rfl, rfl, rfl, rfl, hq, rfl, rfl, rfl⟩

section
variable {s t u : State} {n : Nat}

/-- `n` bytes of the frame have been received, and the next one is asked for (rules R83, R123 to R125). -/
inductive AtFramePosition (s : State) : Nat → Prop
  | number (hs : s.state = .rxHeader) (hi : s.idx = 0) : AtFramePosition s 0
  | complement (hs : s.state = .rxHeader) (hi : s.idx = 1) : AtFramePosition s 1
  | payload (hs : s.state = .rxPayload) (hi : s.idx.toNat ≤ 127) : AtFramePosition s (s.idx.toNat + 2)
  | checksum (hs : s.state = .rxChecksum) : AtFramePosition s 130

/-- The reason of a timeout after `n` bytes of the frame (rules R126, R170). -/
def timeoutReason (n : Nat) : FailReason :=
  if n < 2 then .headerReadError else if n < 130 then .dataReadError else .checksumReadError

theorem AtFramePosition.readFailure (ha : AtFramePosition s n) : s.ReadFailure (timeoutReason n) := by
  cases ha
  case number hs hi => exact .inl ⟨hs, by simp [hi], rfl⟩
  case complement hs hi => exact .inl ⟨hs, by simp [hi], rfl⟩
  case payload hs hi =>
    have hreason : timeoutReason (s.idx.toNat + 2) = .dataReadError := by
      rw [timeoutReason, if_neg (by omega), if_pos (by omega)]
    exact .inr (.inl ⟨hs, Nat.lt_succ_of_le hi, hreason⟩)
  case checksum hs => exact .inr (.inr (.inl ⟨hs, rfl⟩))

/-- What the reads of a frame leave as it is: the CTRL port, what was transmitted and stored, the counters and the
verdict (rule R126). -/
structure FrameLeaves (s t : State) : Prop where
  hostIn : t.hostIn = s.hostIn
  txLog : t.txLog = s.txLog
  sinkTrace : t.sinkTrace = s.sinkTrace
  expBlk : t.expBlk = s.expBlk
  retry : t.retry = s.retry
  verdict : t.verdict = s.verdict

theorem FrameLeaves.trans (hst : FrameLeaves s t) (htu : FrameLeaves t u) : FrameLeaves s u where
  hostIn := htu.hostIn.trans hst.hostIn
  txLog := htu.txLog.trans hst.txLog
  sinkTrace := htu.sinkTrace.trans hst.sinkTrace
  expBlk := htu.expBlk.trans hst.expBlk
  retry := htu.retry.trans hst.retry
  verdict := htu.verdict.trans hst.verdict

/-- Each byte short of the checksum leads to the next position (rules R123, R124). -/
theorem AtFramePosition.exists_works {b : Byte} {f : Feed RxResponse} (ha : AtFramePosition s n) (hn : n < 130)
    (hp : s.rxIn.pull = (some (.byte b), f)) :
    ∃ t : State, Works s t ∧ AtFramePosition t (n + 1) ∧ FrameLeaves s t ∧ t.rxIn = f := by
  cases ha
  case number hs hi => exact ⟨_, .readsNumber hs hi hp, .complement rfl rfl, ⟨rfl, rfl, rfl, rfl, rfl, rfl⟩, rfl⟩
  case complement hs hi =>
    exact ⟨_, .readsComplement hs hi hp, .payload rfl (by simp), ⟨rfl, rfl, rfl, rfl, rfl, rfl⟩, rfl⟩
  case payload hs hi =>
    obtain hlt | hlast := Nat.lt_or_eq_of_le hi
    · have hidx : (s.idx + 1).toNat = s.idx.toNat + 1 := BitVec.toNat_add_of_lt (by simp; omega)
      refine ⟨_, .readsData hs hlt hp, ?_, ⟨rfl, rfl, rfl, rfl, rfl, rfl⟩, rfl⟩
      rw [Nat.add_right_comm, ← hidx]
      exact .payload rfl (hidx.trans_le hlt)
    · have hidx : s.idx = 127 := BitVec.eq_of_toNat_eq hlast
      refine ⟨_, .readsLastData hs hidx hp, ?_, ⟨rfl, rfl, rfl, rfl, rfl, rfl⟩, rfl⟩
      rw [hlast]
      exact .checksum rfl
  case checksum hs => exact absurd hn (Nat.lt_irrefl 130)

/-- A timeout after some more bytes of the frame fails with the reason of its position (rule R126). -/
theorem AtFramePosition.run_timeout {bytes : List Byte} {g : Feed RxResponse} (ha : AtFramePosition s n)
    (hq : s.quietHost) (hlen : n + bytes.length ≤ 130)
    (hrx : Feed.Gives (bytes.map .byte ++ [.timeout]) s.rxIn g) :
    ∃ t : State, core.run (bytes.length + 1) s = .next t ∧ t.state = .failed ∧
      t.fail = timeoutReason (n + bytes.length) ∧ FrameLeaves s t := by
  induction bytes generalizing s n with
  | nil =>
    obtain ⟨f, hp, -⟩ := hrx
    exact ⟨_, run_succ_of_works hq (.readFails ha.readFailure hp) rfl, rfl, rfl, ⟨rfl, rfl, rfl, rfl, rfl, rfl⟩⟩
  | cons b bytes ih =>
    obtain ⟨mid, hp, hrx⟩ := hrx
    rw [List.length_cons] at hlen ⊢
    obtain ⟨u, hw, hu, hkept, rfl⟩ := ha.exists_works (by omega) hp
    obtain ⟨t, hrun, hs, hf, hrest⟩ := ih hu (hkept.hostIn.trans hq) (by omega) hrx
    refine ⟨t, run_succ_of_works hq hw hrun, hs, ?_, hkept.trans hrest⟩
    rw [hf, Nat.add_right_comm, Nat.add_assoc]

end

/-- Settles O54: the dispatch on SOH asks for byte 0 of the frame, and each byte read moves the position by one. -/
theorem frameTimeoutFailsByPosition : Obligations.FrameTimeoutFailsByPosition := by
  intro s received rest hq hs hheld hc hlen hrx
  have hread : s.readCtrl = some soh := readCtrl_eq_some.2 ⟨hheld, hc⟩
  have hgives := Feed.gives_of_queue (l := received.map .byte ++ [.timeout]) (rest := rest) (f := s.rxIn)
    (by simpa [Function.comp_def] using hrx)
  have hstart : AtFramePosition ({ s with idx := 0 }.advance .rxHeader) 0 := .number rfl rfl
  obtain ⟨t, hrun, hst, hf, hkept⟩ := hstart.run_timeout hq (by simpa using hlen) hgives
  rw [Nat.zero_add] at hf
  exact ⟨t, run_succ_of_works hq (.startsFrame hs hread) hrun, hst, hf, hkept.txLog, hkept.sinkTrace, hkept.expBlk,
    hkept.retry, hkept.verdict⟩

end Sys2Proof.Machine
end

section
/-!
SUPPORT. The sequence counter (`42_validation.md` R147): what it counts, and that no step looks at it.
-/
namespace Sys2Proof.Machine

/-! ## The counter law -/

section
variable {s t h : State}

/-- `exp_blk` is one more than the blocks the session stored, modulo 256; in `ACC_ACK`, where the ACK of the latest
block is still to come, it is just their number (rule R147). -/
def BlocksCounted (s : State) : Prop :=
  s.expBlk = BitVec.ofNat 8 ((if s.state = .accAck then 0 else 1) + s.sessionSinkLog.length)

theorem blocksCounted_accAck (hs : s.state = .accAck) :
    BlocksCounted s ↔ s.expBlk = BitVec.ofNat 8 s.sessionSinkLog.length := by
  rw [BlocksCounted, if_pos hs, Nat.zero_add]

theorem blocksCounted_elsewhere (hs : s.state ≠ .accAck) :
    BlocksCounted s ↔ s.expBlk = BitVec.ofNat 8 (1 + s.sessionSinkLog.length) := by
  rw [BlocksCounted, if_neg hs]

/-- Where no write has failed the law is that the blocks are counted. -/
theorem counterLaw_iff_blocksCounted (hf : s.fail ≠ .txWriteError) : CounterLaw s ↔ BlocksCounted s := by
  by_cases hs : s.state = .accAck
  · rw [blocksCounted_accAck hs]
    exact ⟨fun hl => hl.inAck hs, fun he => ⟨fun _ => he, (absurd hs ·), (absurd · hf), fun _ => hf⟩⟩
  · rw [blocksCounted_elsewhere hs]
    exact ⟨fun hl => hl.elsewhere hs hf, fun he => ⟨(absurd · hs), fun _ _ => he, (absurd · hf), fun _ => hf⟩⟩

/-- The law speaks of `state`, `exp_blk`, `fail`, the policy and the session's part of `SinkLog`. -/
theorem CounterLaw.congr (hl : CounterLaw h) (hs : t.state = h.state) (he : t.expBlk = h.expBlk)
    (hf : t.fail = h.fail) (hp : t.params = h.params) (hlog : t.sessionSinkLog = h.sessionSinkLog) :
    CounterLaw t := by
  constructor <;> simp only [hs, he, hf, hp, hlog]
  · exact hl.inAck
  · exact hl.elsewhere
  · exact hl.afterTxFailure
  · exact hl.underIgnore

/-- A failed write leaves the count as it was, with the ACK's block counted or not (rules R145, R177). -/
theorem counterLaw_raise_txWriteError (hc : BlocksCounted s) (hp : s.params.txFailPolicy = .fatal) :
    CounterLaw (s.raise .txWriteError) where
  inAck := nofun
  elsewhere := fun _ hf => absurd rfl hf
  afterTxFailure := fun _ => by
    by_cases hs : s.state = .accAck
    · exact .inl ((blocksCounted_accAck hs).1 hc)
    · exact .inr ((blocksCounted_elsewhere hs).1 hc)
  underIgnore := fun hi => absurd (hp.symm.trans hi) nofun

/-- A step outside `ACC_ACK` that stores nothing leaves the blocks counted. -/
theorem counterLaw_of_unmoved (hc : BlocksCounted h) (hh : h.state ≠ .accAck) (ht : t.state ≠ .accAck)
    (hf : t.fail ≠ .txWriteError) (he : t.expBlk = h.expBlk) (hlog : t.sessionSinkLog = h.sessionSinkLog) :
    CounterLaw t := by
  rw [counterLaw_iff_blocksCounted hf, blocksCounted_elsewhere ht, he, hlog]
  exact (blocksCounted_elsewhere hh).1 hc

/-- `ACC_ACK` is entered with a block stored that is not counted yet (rule R144). -/
theorem counterLaw_of_stored {p : Block} (hc : BlocksCounted h) (hh : h.state ≠ .accAck) (ht : t.state = .accAck)
    (hf : t.fail ≠ .txWriteError) (he : t.expBlk = h.expBlk) (hlog : t.sessionSinkLog = h.sessionSinkLog ++ [p]) :
    CounterLaw t := by
  rw [counterLaw_iff_blocksCounted hf, blocksCounted_accAck ht, he, hlog, List.length_append, Nat.add_comm]
  exact (blocksCounted_elsewhere hh).1 hc

/-- The ACK counts the block (rule R145). -/
theorem counterLaw_of_acknowledged (hc : BlocksCounted h) (hh : h.state = .accAck) (ht : t.state ≠ .accAck)
    (hf : t.fail ≠ .txWriteError) (he : t.expBlk = h.expBlk + 1) (hlog : t.sessionSinkLog = h.sessionSinkLog) :
    CounterLaw t := by
  rw [counterLaw_iff_blocksCounted hf, blocksCounted_elsewhere ht, he, hlog, (blocksCounted_accAck hh).1 hc,
    Nat.add_comm 1, BitVec.ofNat_add]
  rfl

theorem counterLaw_txDone {c : Ctl} (r : TxResponse) (hc : BlocksCounted s) (hs : s.state ≠ .accAck)
    (hne : c ≠ .accAck) (hf : s.fail ≠ .txWriteError) : CounterLaw (s.txDone r c) := by
  obtain ⟨-, ht⟩ | ⟨hg, ht⟩ := txDone_cases r c s <;> rw [ht]
  · exact counterLaw_of_unmoved hc hs hne hf rfl rfl
  · exact counterLaw_raise_txWriteError hc (txFailPolicy_eq_fatal_of_not_goesOn hg)

theorem State.ReadFailure.state_ne_accAck {r : FailReason} (hr : s.ReadFailure r) : s.state ≠ .accAck := by
  rcases hr with ⟨hs, -⟩ | ⟨hs, -⟩ | ⟨hs, -⟩ | ⟨hs, -⟩ <;> simp [hs]

theorem State.ReadFailure.reason_ne_txWriteError {r : FailReason} (hr : s.ReadFailure r) : r ≠ .txWriteError := by
  rcases hr with ⟨-, -, rfl⟩ | ⟨-, -, rfl⟩ | ⟨-, rfl⟩ | ⟨-, rfl⟩ <;> decide

/-- A sink write enters the session's part of `SinkLog` when it answered `SinkOk` (rule R61). -/
theorem sessionSinkLog_logSink (hm : MarksWithin s) (p : Block) (r : SinkResponse) :
    (s.logSink p r).sessionSinkLog = s.sessionSinkLog ++ (storedBlock (p, .got r)).toList := by
  obtain ⟨-, -, hsink⟩ := hm
  simp only [State.sessionSinkLog, State.logSink_sinkTrace, State.logSink_sinkMark]
  rw [List.drop_append_of_le_length hsink, List.filterMap_append]
  cases r <;> rfl

theorem Works.counterLaw (hw : Works h t) (hi : Inv h) (hm : MarksWithin h) (hl : CounterLaw h) : CounterLaw t := by
  by_cases hfailed : h.state = .failed
  · rw [hw.eq_advance_of_failed hfailed]
    exact hl.congr hfailed.symm rfl rfl rfl rfl
  have hf : h.fail ≠ .txWriteError := (hi.fail_eq_none hfailed).trans_ne nofun
  have hc : BlocksCounted h := (counterLaw_iff_blocksCounted hf).1 hl
  cases hw
  case rests | awaitsRead | awaitsWrite | awaitsSink => exact hl.congr rfl rfl rfl rfl rfl
  case stores f hs hb hp =>
    have hstored := sessionSinkLog_logSink (s := { h with sinkIn := f }) hm h.buf .ok
    exact counterLaw_of_stored hc (by simp [hs]) rfl hf rfl hstored
  case storeFails f hs hb hp =>
    have hkept := sessionSinkLog_logSink (s := { h with sinkIn := f }) hm h.buf .fail
    exact counterLaw_of_unmoved hc (by simp [hs]) nofun nofun rfl (hkept.trans (List.append_nil _))
  case acksBlock r f hs hp hg => exact counterLaw_of_acknowledged hc hs nofun hf rfl rfl
  case ackFails hs hp hg => exact counterLaw_raise_txWriteError hc (txFailPolicy_eq_fatal_of_not_goesOn hg)
  case endsTransfer r f hs _ _ | probes r f hs _ | naksBlock r f hs _ =>
    exact counterLaw_txDone r hc (by simp [hs]) nofun hf
  case readFails hr hp => exact counterLaw_of_unmoved hc hr.state_ne_accAck nofun hr.reason_ne_txWriteError rfl rfl
  case probeCeiling hs _ _ => exact counterLaw_of_unmoved hc (by simp [hs]) nofun nofun rfl rfl
  case takesControl hs _ _ =>
    exact counterLaw_of_unmoved hc (by rcases hs with hs | hs <;> simp [hs]) nofun hf rfl rfl
  case strayProbe hs _ _ | probeTimeout hs _ _ | startsFrame hs _ | readsNumber hs _ _ | readsComplement hs _ _ |
      readsData hs _ _ | readsLastData hs _ _ | readsChecksum hs _ | rejectsHeader hs _ _ |
      rejectsChecksum hs _ _ _ _ _ | accepts hs _ _ _ _ _ | strayBetween hs _ _ =>
    exact counterLaw_of_unmoved hc (by simp [hs]) nofun hf rfl rfl

/-- A session begins with nothing stored, and so does the time after a reset (rules R34, R203). -/
theorem counterLaw_of_emptySession (hs : t.state ≠ .accAck) (hf : t.fail = .none) (he : t.expBlk = 1)
    (hmark : t.sinkMark = t.sinkTrace.length) : CounterLaw t := by
  have hlog : t.sessionSinkLog = [] := by rw [State.sessionSinkLog, hmark, List.drop_length]; rfl
  rw [counterLaw_iff_blocksCounted (hf.trans_ne nofun), blocksCounted_elsewhere hs, he, hlog]
  rfl

theorem step_counterLaw (hstep : step s = .next t) (hi : Inv s) (hm : MarksWithin s) (hl : CounterLaw s) :
    CounterLaw t := by
  obtain ⟨-, rfl⟩ | ⟨-, -, -, rfl⟩ | ⟨-, hw⟩ := step_next_cases hstep
  · exact counterLaw_of_emptySession nofun rfl rfl rfl
  · exact counterLaw_of_emptySession nofun rfl rfl rfl
  · exact hw.counterLaw hi.hostTaken hm (hl.congr rfl rfl rfl rfl rfl)

/-! ## The session's marks -/

/-- Only a reset and `start` move the marks (log entry 8). -/
theorem Works.marks_eq (hw : Works h t) :
    t.rxMark = h.rxMark ∧ t.txMark = h.txMark ∧ t.sinkMark = h.sinkMark := by
  cases hw
  case endsTransfer r f _ _ _ | probes r f _ _ | naksBlock r f _ _ =>
    obtain ⟨-, ht⟩ | ⟨-, ht⟩ := txDone_cases r _ _ <;> rw [ht] <;> exact ⟨rfl, rfl, rfl⟩
  all_goals exact ⟨rfl, rfl, rfl⟩

theorem step_marksWithin (hstep : step s = .next t) (hm : MarksWithin s) : MarksWithin t := by
  obtain ⟨-, rfl⟩ | ⟨-, -, -, rfl⟩ | ⟨-, hw⟩ := step_next_cases hstep
  · exact ⟨Nat.le_refl _, Nat.le_refl _, Nat.le_refl _⟩
  · exact ⟨Nat.le_refl _, Nat.le_refl _, Nat.le_refl _⟩
  · obtain ⟨hrx, htx, hsink⟩ := hm
    obtain ⟨hrxMark, htxMark, hsinkMark⟩ := hw.marks_eq
    obtain ⟨hrxLog, htxLog, hsinkTrace, -⟩ := oneTransactionAtMostPerStep s t hstep
    exact ⟨hrxMark.trans_le (hrx.trans hrxLog.length_le), htxMark.trans_le (htx.trans htxLog.length_le),
      hsinkMark.trans_le (hsink.trans hsinkTrace.length_le)⟩

end

/-- Settles O49: `ACC_ACK` is entered with one block stored more and left with one counted more, and every other step
moves neither. -/
theorem stepKeepsTheCounterLaw : Obligations.StepKeepsTheCounterLaw := by
  intro s t hi hm hl hstep
  exact ⟨step_marksWithin hstep hm, step_counterLaw hstep hi hm hl⟩

/-! ## The counter is never consulted -/

section
variable {t h : State}

/-- The two states differ in `exp_blk` at most. -/
def EqButExpBlk (u t : State) : Prop := { u with expBlk := t.expBlk } = t

theorem eqButExpBlk_txDone (r : TxResponse) (c : Ctl) (s : State) (e : Byte) :
    EqButExpBlk (State.txDone r c { s with expBlk := e }) (s.txDone r c) := by
  rw [txDone_expBlk r c s e]
  rfl

/-- No guard of a work looks at `exp_blk`, so from another `exp_blk` the same work is done (rule R147). -/
theorem Works.exists_of_expBlk (hw : Works h t) (e : Byte) :
    ∃ u : State, Works { h with expBlk := e } u ∧ EqButExpBlk u t := by
  cases hw
  case rests hs => exact ⟨_, .rests hs, rfl⟩
  case awaitsRead hr hp => exact ⟨_, .awaitsRead hr hp, rfl⟩
  case awaitsWrite hr hc hp => exact ⟨_, .awaitsWrite hr hc hp, rfl⟩
  case awaitsSink hs hb hp => exact ⟨_, .awaitsSink hs hb hp, rfl⟩
  case takesControl hs hb hp => exact ⟨_, .takesControl hs hb hp, rfl⟩
  case strayProbe hs hb hp => exact ⟨_, .strayProbe hs hb hp, rfl⟩
  case probeTimeout hs hp hc => exact ⟨_, .probeTimeout hs hp hc, rfl⟩
  case probeCeiling hs hp hc => exact ⟨_, .probeCeiling hs hp hc, rfl⟩
  case startsFrame hs hc => exact ⟨_, .startsFrame hs hc, rfl⟩
  case readsNumber hs hi hp => exact ⟨_, .readsNumber hs hi hp, rfl⟩
  case readsComplement hs hi hp => exact ⟨_, .readsComplement hs hi hp, rfl⟩
  case readsData hs hi hp => exact ⟨_, .readsData hs hi hp, rfl⟩
  case readsLastData hs hi hp => exact ⟨_, .readsLastData hs hi hp, rfl⟩
  case readsChecksum hs hp => exact ⟨_, .readsChecksum hs hp, rfl⟩
  case readFails hr hp => exact ⟨_, .readFails hr hp, rfl⟩
  case rejectsHeader hs hh hc => exact ⟨_, .rejectsHeader hs hh hc, rfl⟩
  case rejectsChecksum hs hh hc hb hk hck => exact ⟨_, .rejectsChecksum hs hh hc hb hk hck, rfl⟩
  case accepts hs hh hc hb hk hck => exact ⟨_, .accepts hs hh hc hb hk hck, rfl⟩
  case stores hs hb hp => exact ⟨_, .stores hs hb hp, rfl⟩
  case storeFails hs hb hp => exact ⟨_, .storeFails hs hb hp, rfl⟩
  case acksBlock hs hp hg => exact ⟨_, .acksBlock hs hp hg, rfl⟩
  case ackFails hs hp hg => exact ⟨_, .ackFails hs hp hg, rfl⟩
  case strayBetween hs hb hp => exact ⟨_, .strayBetween hs hb hp, rfl⟩
  case endsTransfer r f hs hc hp =>
    exact ⟨_, .endsTransfer hs hc hp, eqButExpBlk_txDone r _ ({ h with txIn := f }.logTx ack r) e⟩
  case probes r f hs hp =>
    exact ⟨_, .probes hs hp, eqButExpBlk_txDone r _ ({ h with txIn := f }.logTx nak r) e⟩
  case naksBlock r f hs hp =>
    exact ⟨_, .naksBlock hs hp, eqButExpBlk_txDone r _ ({ h with txIn := f }.logTx nak r) e⟩

/-- A reset writes the same whatever `exp_blk` is (rule R200). -/
theorem hardReset_expBlk (s : State) (e : Byte) : State.hardReset { s with expBlk := e } = s.hardReset := by
  cases ho : s.outstanding with
  | none => simp [State.hardReset, State.dropOutstanding, resetRegisters_eq, ho]
  | some r => cases r <;> simp [State.hardReset, State.dropOutstanding, resetRegisters_eq, ho]

end

/-- Settles O44: a reset and `start` write `exp_blk` anew, and each work of a state is there whatever it holds. -/
theorem sequenceCounterIsNeverConsulted : Obligations.SequenceCounterIsNeverConsulted := by
  intro s t e hstep
  obtain ⟨hreset, rfl⟩ | ⟨hreset, hstart, htakes, rfl⟩ | ⟨hq, hw⟩ := step_next_cases hstep
  · have hsame := hardReset_expBlk s.hostTaken e
    exact ⟨_, (step_of_reset (s := { s with expBlk := e }) hreset).trans (congrArg _ hsame), rfl⟩
  · exact ⟨_, step_of_start (s := { s with expBlk := e }) hreset (Bool.and_eq_true_iff.2 ⟨hstart, htakes⟩), rfl⟩
  · obtain ⟨u, hu, heq⟩ := hw.exists_of_expBlk e
    exact ⟨u, step_of_works (s := { s with expBlk := e }) hq hu, heq⟩

end Sys2Proof.Machine
end

section
/-!
SUPPORT. The checksum (`42_validation.md` R141), and the step of `VALIDATING` and the rows that answer a block (R142 to
R146).
-/
namespace Sys2Proof.Machine

/-! ## The checksum -/

section
variable {p : Block}

theorem calcCk_toNat (p : Block) : (calcCk p).toNat = (p.toList.map BitVec.toNat).sum % 256 := by
  rw [calcCk, BitVec.toNat_ofNat, Nat.mod_mod]

theorem ckOk_iff_eq {k : Byte} : ckOk p k = true ↔ k = calcCk p := beq_iff_eq.trans eq_comm

theorem ckOk_iff_sum {k : Byte} : ckOk p k = true ↔ (p.toList.map BitVec.toNat).sum % 256 = k.toNat := by
  rw [ckOk_iff_eq, ← calcCk_toNat, BitVec.toNat_inj, eq_comm]

/-- A running sum modulo 256 comes to the natural-number sum modulo 256 (rule R141). -/
theorem foldl_add_eq_ofNat_sum (l : List Byte) (a : Byte) :
    l.foldl (fun x y => x + y) a = a + BitVec.ofNat 8 (l.map BitVec.toNat).sum := by
  induction l generalizing a with
  | nil => simp
  | cons b l ih =>
    rw [List.foldl_cons, ih, List.map_cons, List.sum_cons, BitVec.ofNat_add, BitVec.ofNat_toNat,
      BitVec.setWidth_eq, BitVec.add_assoc]

end

/-- Settles O35: the sum of natural numbers is the same in any order, and modulo 256 a running sum comes to it. -/
theorem checksumIsTheByteSum : Obligations.ChecksumIsTheByteSum := by
  intro p
  refine ⟨calcCk_toNat p, ?_, fun k => ckOk_iff_sum, fun q hq => ?_⟩
  · rw [foldl_add_eq_ofNat_sum, BitVec.zero_add, ← BitVec.toNat_inj, calcCk_toNat, BitVec.toNat_ofNat]
  · rw [calcCk, calcCk, (hq.map BitVec.toNat).sum_nat]

/-! ## The step of `VALIDATING` -/

/-- Settles O18: the check that fails first decides the step, and a frame that passes both is accepted. -/
theorem validationDecidesInOrder : Obligations.ValidationDecidesInOrder := by
  intro s hq hs hnum hcmp
  have hh : s.hostTaken.readHeader = some (s.hdrNum, s.hdrCmp) := readHeader_eq_some.2 ⟨hnum, hcmp, rfl, rfl⟩
  refine ⟨fun hbad => ?_, fun hsum hbuf hck => ?_⟩
  · exact step_of_works hq (.rejectsHeader hs hh (Bool.eq_false_iff.2 (hbad ∘ hdrOk_iff.1)))
  · have hok : hdrOk s.hdrNum s.hdrCmp = true := hdrOk_iff.2 hsum
    have hb : s.hostTaken.readBuf = some s.buf := readBuf_eq_some.2 ⟨hbuf, rfl⟩
    have hk : s.hostTaken.readRxCk = some s.rxCk := readRxCk_eq_some.2 ⟨hck, rfl⟩
    refine ⟨fun hbad => ?_, fun hgood => ?_⟩
    · exact step_of_works hq (.rejectsChecksum hs hh hok hb hk (Bool.eq_false_iff.2 (hbad ∘ ckOk_iff_sum.1)))
    · exact step_of_works hq (.accepts hs hh hok hb hk (ckOk_iff_sum.2 hgood))

/-! ## The sink write and the reply -/

section
variable {s : State}

theorem sinkWrite_of_response {p : Block} {after : SinkResponse → State → State} {r : SinkResponse}
    {f : Feed SinkResponse} (hp : s.sinkIn.pull = (some r, f)) :
    sinkWrite p after s = .next (after r ({ s with sinkIn := f }.logSink p r)) := by
  unfold sinkWrite
  rw [hp]

/-- The state a sink write that answered leads to (rule R144). -/
def State.sinkDone (r : SinkResponse) (s : State) : State :=
  match r with
  | .ok => s.advance .accAck
  | .fail => s.raise .sinkWriteError

/-- On a buffer that holds values the row is the write of the buffer (rule R144). -/
theorem exec_skWrite_eq_sinkWrite (hs : s.state = .accWrite) (hb : s.bufHolds) :
    exec (.skWrite s.buf) s = sinkWrite s.buf State.sinkDone s := by
  have hbuf : s.readBuf = some s.buf := readBuf_eq_some.2 ⟨hb, rfl⟩
  show execSkWrite s.buf s = _
  rw [execSkWrite, inState_of_state hs, hbuf]
  exact if_pos rfl

end

/-- Settles O19: the sink's answer decides. -/
theorem acceptedPayloadIsWrittenToTheSink : Obligations.AcceptedPayloadIsWrittenToTheSink := by
  intro s f hs hb
  rw [exec_skWrite_eq_sinkWrite hs hb]
  exact ⟨sinkWrite_of_response, sinkWrite_of_response⟩

/-- Settles O20: the channel's answer ends the write, and where the session goes on the counter advances. -/
theorem acceptedBlockIsAcknowledged : Obligations.AcceptedBlockIsAcknowledged := by
  intro s r f hs hp
  have hexec : exec .txAck s = ackBlock s := by simp only [exec, execTxAck, hs]
  have hcount : BitVec.ofNat 8 ((s.expBlk.toNat + 1) % 256) = s.expBlk + 1 := BitVec.eq_of_toNat_eq (by simp)
  rw [hexec, ackBlock, txWrite_of_response hp, hcount]
  simp only [txGoesOn_iff]
  rfl

/-- Settles O21: the channel's answer ends the write by `tx_done`. -/
theorem rejectedBlockIsNaked : Obligations.RejectedBlockIsNaked := by
  intro s r f hs hp
  have hexec : exec .txNak s = txWrite nak (fun r t => t.txDone r .nextCtrl) s := by simp only [exec, execTxNak, hs]
  rw [hexec, txWrite_of_response hp, txDone_eq_ite]
  rfl

end Sys2Proof.Machine
end

section
/-!
SUPPORT. The answered frame and the whole transfer under a quiet CTRL port (`42_validation.md` R147, R148, R150;
`70_reset_and_hazards.md` R212, R213).
-/
namespace Sys2Proof.Machine

/-! ## The answered frame -/

theorem hdrOk_iff_eq_sub {n c : Byte} : hdrOk n c = true ↔ c = 0xFF#8 - n := hdrOk_iff.trans sum_eq_255_iff_eq_sub

/-- Settles O55: the two checks are the two equalities, and each outcome has its run. -/
theorem validatedFrameIsAnswered : Obligations.ValidatedFrameIsAnswered := by
  intro s hq hs hnum hcmp hbuf hheld htx hsink
  have hh : s.readHeader = some (s.hdrNum, s.hdrCmp) := readHeader_eq_some.2 ⟨hnum, hcmp, rfl, rfl⟩
  have hb : s.readBuf = some s.buf := readBuf_eq_some.2 ⟨hbuf, rfl⟩
  have hk : s.readRxCk = some s.rxCk := readRxCk_eq_some.2 ⟨hheld, rfl⟩
  simp only [← hdrOk_iff_eq_sub, ← ckOk_iff_eq]
  refine ⟨fun ⟨hok, hck⟩ => ?_, fun hbad => ?_⟩
  · exact ⟨_, run_accept hq hs hh hb hk htx hsink hok hck, rfl, rfl, rfl, rfl, rfl, rfl⟩
  · rw [← Bool.and_eq_true_iff, Bool.not_eq_true] at hbad
    exact ⟨_, run_reject hq hs hh hb hk htx hbad, rfl, rfl, rfl, rfl, rfl, rfl⟩

/-! ## The whole transfer -/

section
variable {s t : State} {b : Byte} {g : Feed RxResponse} {blocks : List (Byte × Block)}

/-- The frame a sender makes of a block and any number (rules R85, R86, R92). -/
def goodWireFrame (b : Byte × Block) : WireFrame := ⟨b.1, 0xFF#8 - b.1, b.2, calcCk b.2⟩

theorem wire_goodWireFrame (b : Byte × Block) : (goodWireFrame b).wire = wireBlock b := rfl

@[simp] theorem valid_goodWireFrame (b : Byte × Block) : (goodWireFrame b).valid = true :=
  Bool.and_eq_true_iff.2 ⟨hdrOk_iff_eq_sub.2 rfl, ckOk_iff_eq.2 rfl⟩

@[simp] theorem reply_goodWireFrame (b : Byte × Block) : (goodWireFrame b).reply = ack :=
  if_pos (valid_goodWireFrame b)

@[simp] theorem steps_goodWireFrame (b : Byte × Block) : (goodWireFrame b).steps = 136 :=
  if_pos (valid_goodWireFrame b)

/-- Good blocks between blocks: each is stored and acknowledged, whatever its number (rules R147, R150). -/
theorem run_goodBlocks (hq : s.quietHost) (hs : s.state = .nextCtrl) (htx : s.txIn = Feed.always .ok)
    (hsink : s.sinkIn = Feed.always .ok) (hrx : Feed.Gives (blocks.flatMap wireBlock) s.rxIn g) :
    ∃ t : State, core.run (136 * blocks.length) s = .next t ∧ Answered (blocks.map goodWireFrame) s t ∧
      t.rxIn = g := by
  have hsteps : ((blocks.map goodWireFrame).map WireFrame.steps).sum = 136 * blocks.length := by
    simp [Function.comp_def, Nat.mul_comm]
  rw [← hsteps]
  exact run_wireFrames hq hs htx hsink (by simpa only [List.flatMap_map, wire_goodWireFrame] using hrx)

/-- What the answers to good blocks come to: each one is stored, acknowledged and counted. -/
theorem Answered.of_goodBlocks (ha : Answered (blocks.map goodWireFrame) s t) :
    t.expBlk = s.expBlk + BitVec.ofNat 8 blocks.length ∧
      t.sinkTrace = s.sinkTrace ++ blocks.map (fun b => (b.2, .got .ok)) ∧
      t.txLog = s.txLog ++ List.replicate blocks.length (ack, .got .ok) := by
  have hvalid : (blocks.map goodWireFrame).filter WireFrame.valid = blocks.map goodWireFrame :=
    List.filter_eq_self.2 (List.forall_mem_map.2 fun b _ => valid_goodWireFrame b)
  refine ⟨?_, ?_, ?_⟩
  · rw [ha.expBlk, hvalid, List.length_map]
  · rw [ha.sinkTrace, hvalid, List.map_map]
    rfl
  · rw [ha.txLog, List.map_map, List.map_eq_replicate_iff.2 fun b _ => ?_]
    exact congrArg (·, _) (reply_goodWireFrame b)

/-- From `NEXT_CTRL` an EOT is acknowledged in 2 steps (rules R120, R161). -/
theorem run_eot (hq : s.quietHost) (hs : s.state = .nextCtrl) (htx : s.txIn = Feed.always .ok)
    (hp : s.rxIn.pull = (some (.byte eot), g)) :
    core.run 2 s = .next ((({ s with rxIn := g }.acceptCtrl eot).logTx ack .ok).advance .complete) := by
  have hack : s.txIn.pull = (some .ok, s.txIn) := by rw [htx]; rfl
  exact run_succ_of_works hq (.takesControl (.inr hs) rfl hp) (run_succ_of_works hq (.endsTransfer rfl rfl hack) rfl)

/-- After the probe the first control byte is carried as one between blocks is (rules R101, R103, R161). -/
theorem run_probe_control (hq : s.quietHost) (hs : s.state = .hsNak) (htx : s.txIn = Feed.always .ok)
    (hb : isControlByte b = true) (hp : s.rxIn.pull = (some (.byte b), g)) (n : Nat) :
    core.run (n + 2) s = core.run (n + 1) ((s.logTx nak .ok).advance .nextCtrl) := by
  have hprobe := step_of_works_quiet hq (works_probe_ok hs htx)
  have hfirst := step_of_works_quiet (s := (s.logTx nak .ok).advance .hsRead) hq (.takesControl (.inl rfl) hb hp)
  have hnext := step_of_works_quiet (s := (s.logTx nak .ok).advance .nextCtrl) hq (.takesControl (.inr rfl) hb hp)
  rw [run_succ_of_step hprobe, run_succ_of_step hfirst, run_succ_of_step hnext]
  rfl

/-- A transfer begins with a control byte: the first block's SOH, or the EOT. -/
theorem exists_pull_control {f : Feed RxResponse}
    (hrx : Feed.Gives (blocks.flatMap wireBlock ++ [.byte eot]) f g) :
    ∃ (b : Byte) (mid : Feed RxResponse), isControlByte b = true ∧ f.pull = (some (.byte b), mid) := by
  cases blocks with
  | nil => exact hrx.elim fun mid ⟨hp, _⟩ => ⟨eot, mid, rfl, hp⟩
  | cons block blocks => exact hrx.elim fun mid ⟨hp, _⟩ => ⟨soh, mid, rfl, hp⟩

end

/-- Settles O56: after the probe the blocks are answered one after another and the EOT ends the transfer. -/
theorem everyGoodTransferCompletes : Obligations.EveryGoodTransferCompletes := by
  intro s blocks rest hq hs htx hsink hqueue
  have hrx : Feed.Gives (blocks.flatMap wireBlock ++ [.byte eot]) s.rxIn { s.rxIn with queue := rest } :=
    Feed.gives_of_queue hqueue
  obtain ⟨b, f, hb, hp⟩ := exists_pull_control hrx
  obtain ⟨mid, hblocks, heot⟩ := Feed.gives_append.1 hrx
  obtain ⟨u, hrun, hu, rfl⟩ := run_goodBlocks (s := (s.logTx nak .ok).advance .nextCtrl) hq rfl htx hsink hblocks
  obtain ⟨g, hpull, rfl⟩ := heot
  have hstart : core.run (2 + 136 * blocks.length + 1) s = core.run 2 u := by
    rw [show 2 + 136 * blocks.length + 1 = 136 * blocks.length + 1 + 2 by omega, run_probe_control hq hs htx hb hp,
      Nat.add_assoc, run_add_of_run hrun]
  have hend := run_eot (hu.hostIn.trans hq) hu.state (hu.txIn.trans htx) hpull
  obtain ⟨hcount, hstored, hacked⟩ := hu.of_goodBlocks
  refine ⟨_, hstart.trans hend, rfl, hu.fail, hu.retry, hcount, hstored, ?_, rfl⟩
  show u.txLog ++ [(ack, .got .ok)] = s.txLog ++ (nak, .got .ok) :: List.replicate _ (ack, .got .ok)
  rw [hacked, List.append_assoc, ← List.replicate_succ']
  exact List.append_assoc ..

end Sys2Proof.Machine
end

section
/-!
SUPPORT. The rows of the inter-block wait (`43_interblock.md` R160 to R162).
-/
namespace Sys2Proof.Machine

/-- To advance to the state it is in, a session only closes its event and its transaction (rules R43, R50). -/
theorem advance_of_state {s : State} {c : Ctl} (hs : s.state = c) :
    s.advance c = { s with event := .none, outstanding := none } := by
  subst hs
  rfl

/-- Settles O22: the row's one outcome is the failed read. -/
theorem nextBlockTimeoutIsFatal : Obligations.NextBlockTimeoutIsFatal := by
  intro s hs
  exact inState_of_state hs

/-- Settles O23: both rows accept their control byte. -/
theorem nextControlByteIsCarried : Obligations.NextControlByteIsCarried := by
  intro s hs
  exact ⟨inState_of_state hs, inState_of_state hs⟩

/-- Settles O24: a byte that is neither SOH nor EOT is the row's own, and the row advances to the state it is in. -/
theorem nextStrayByteIsIgnored : Obligations.NextStrayByteIsIgnored := by
  intro s b hs hsoh heot
  have hstray : isControlByte b = false := isControlByte_eq_false hsoh heot
  have hstays : (s.logRx (.byte b)).state = .nextCtrl := hs
  show execNcStray b s = _
  rw [execNcStray, hstray, advance_of_state hstays]
  exact inState_of_state hs

end Sys2Proof.Machine
end

section
/-!
SUPPORT. The terminal states and the waits (`60_exceptions.md` R180 to R182, R188; `70_reset_and_hazards.md` R207).
-/
namespace Sys2Proof.Machine

/-! ## How a session completes -/

section
variable {s t h : State}

theorem txDone_of_complete {r : TxResponse} {c : Ctl} (hf : (s.txDone r c).state = .complete) : c = .complete := by
  obtain ⟨-, he⟩ | ⟨-, he⟩ := txDone_cases r c s
  · simpa [he] using hf
  · simp [he] at hf

/-- Of the works of a state outside `COMPLETE`, only the end of the transfer leads to it (rules R120, R180). -/
theorem Works.endsTransfer_of_complete (hw : Works h t) (hne : h.state ≠ .complete) (hc : t.state = .complete) :
    h.state = .awaitCtrl ∧ h.readCtrl = some eot ∧
      ∃ (r : TxResponse) (f : Feed TxResponse), t = ({ h with txIn := f }.logTx ack r).txDone r .complete := by
  cases hw
  case endsTransfer hs hctrl _ => exact ⟨hs, hctrl, _, _, rfl⟩
  case rests | awaitsRead | awaitsWrite | awaitsSink => exact absurd hc hne
  case probes | naksBlock => cases txDone_of_complete hc
  all_goals cases hc

theorem step_endsTransfer_of_complete (hstep : step s = .next t) (hne : s.state ≠ .complete)
    (hc : t.state = .complete) :
    s.state = .awaitCtrl ∧ s.readCtrl = some eot ∧
      ∃ (r : TxResponse) (f : Feed TxResponse), t = ({ s.hostTaken with txIn := f }.logTx ack r).txDone r .complete := by
  obtain ⟨-, rfl⟩ | ⟨-, -, -, rfl⟩ | ⟨-, hw⟩ := step_next_cases hstep
  · cases hc
  · cases hc
  · exact hw.endsTransfer_of_complete hne hc

end

/-- Settles O41: the step ends a transfer, whose write is the ACK. -/
theorem completeIsEnteredOnlyOnEot : Obligations.CompleteIsEnteredOnlyOnEot := by
  intro s t hstep hne hc
  obtain ⟨hs, hctrl, r, f, rfl⟩ := step_endsTransfer_of_complete hstep hne hc
  exact ⟨hs, (readCtrl_eq_some.1 hctrl).2, r, State.txDone_txLog ..⟩

/-! ## The terminal states -/

section
variable {s t : State}

/-- A state that rests only closes its event and its transaction, once the CTRL port is sampled (rules R180, R181,
R202; log entry 14). -/
theorem step_of_rest (hq : s.proceeds) (hs : s.state = .idle ∨ s.state = .complete ∨ s.state = .failed) :
    step s = .next { s with hostIn := s.hostIn.tail, event := .none, outstanding := none } :=
  step_of_works hq (.rests hs)

/-- A state that rests is left by reset or by `start` alone (rules R182, R203). -/
theorem step_leaves_rest (hs : s.state = .idle ∨ s.state = .complete ∨ s.state = .failed)
    (hstep : step s = .next t) (hne : t.state ≠ s.state) :
    (s.hostSample.reset = true ∧ t.state = .idle) ∨ (s.hostSample.start = true ∧ t.state = .hsNak) := by
  obtain ⟨hreset, rfl⟩ | ⟨-, hstart, -, rfl⟩ | ⟨hq, -⟩ := step_next_cases hstep
  · exact .inl ⟨hreset, rfl⟩
  · exact .inr ⟨hstart, rfl⟩
  · cases (step_of_rest hq hs).symm.trans hstep
    exact absurd rfl hne

end

/-- Settles O7: both terminal states rest. -/
theorem terminalStatesHold : Obligations.TerminalStatesHold := by
  intro s hs
  have hrest : s.state = .idle ∨ s.state = .complete ∨ s.state = .failed := .inr hs
  refine ⟨?_, fun hq => step_of_rest hq hrest, fun t => step_leaves_rest hrest⟩
  rcases hs with hs | hs <;> simp [State.done, hs, Ctl.isTerminal]

/-! ## Waiting -/

/-- Where the state dispatches on `ctrl`, only an EOT asks for a write (rule R120). -/
theorem readCtrl_of_request_txWrite {s : State} {b : Byte} (hr : s.request = some (.txWrite b))
    (hs : s.state = .awaitCtrl) (hheld : s.held.ctrl = true) : s.readCtrl = some eot := by
  obtain ⟨heot, -⟩ : s.ctrl = eot ∧ ack = b := by simpa [State.request, hs] using hr
  exact readCtrl_eq_some.2 ⟨hheld, heot⟩

/-- Settles O27: each kind of request has its work that waits for the answer. -/
theorem waitingHoldsEveryRegister : Obligations.WaitingHoldsEveryRegister := by
  intro s hq
  refine ⟨fun f hr hp => ?_, fun b f hr hheld hp => ?_, fun p f hr hb hp => ?_⟩
  · exact step_of_works hq (.awaitsRead hr hp)
  · exact step_of_works hq (.awaitsWrite hr (fun hs => readCtrl_of_request_txWrite hr hs (hheld hs)) hp)
  · obtain ⟨hs, rfl⟩ := request_eq_sinkWrite_iff.1 hr
    exact step_of_works hq (.awaitsSink hs (readBuf_eq_some.2 ⟨hb, rfl⟩) hp)

end Sys2Proof.Machine
end

section
/-!
SUPPORT. Reset, `start` and the rest in `IDLE` (`70_reset_and_hazards.md` R200 to R204), and where the block gets no
step or no answer (R207, R214).
-/
namespace Sys2Proof.Machine

/-! ## Responses and requests that no state asks for -/

section
variable {s : State} {k : Result}

theorem offRow_of_not_reserved (hr : s.state.isReserved = false) : s.offRow = .refused .noSuchTransaction := by
  rw [State.offRow, hr]
  rfl

/-- A row that runs in one state is off its row in every other. -/
theorem inState_of_ne {c : Ctl} (hne : s.state ≠ c) : s.inState c k = s.offRow := if_neg hne

theorem exec_txAck_of_ne (hack : s.state ≠ .accAck) (hctrl : s.state ≠ .awaitCtrl) : exec .txAck s = s.offRow := by
  show execTxAck s = _
  unfold execTxAck
  split
  · exact absurd ‹_› hack
  · exact absurd ‹_› hctrl
  · rfl

theorem exec_txNak_of_ne (hprobe : s.state ≠ .hsNak) (hrej : s.state ≠ .rejNak) : exec .txNak s = s.offRow := by
  show execTxNak s = _
  unfold execTxNak
  split
  · exact absurd ‹_› hprobe
  · exact absurd ‹_› hrej
  · rfl

/-- The rows that answer a read and the sink write run in the one state that fetches them; a catch-all row's byte is no
control byte (rules R82, R207). -/
theorem exec_of_ne_fetchState {i : Instr} (hwf : i.wf = true) (hne : s.state ≠ fetchState i) (htx : i.context ≠ .tx)
    (hac : i.context ≠ .ac) : exec i s = s.offRow := by
  cases i
  case hsStray b | ncStray b =>
    have hb : isControlByte b = false := by simpa [Instr.wf] using hwf
    exact (if_neg (by simp [hb])).trans (inState_of_ne hne)
  case acSoh | acEot | acOther => exact absurd rfl hac
  case txAck | txNak => exact absurd rfl htx
  all_goals exact inState_of_ne hne

end

/-- Settles O28: outside a reserved state, each row that is off its states is refused. -/
theorem rowsOutsideTheirStateAreRefused : Obligations.RowsOutsideTheirStateAreRefused := by
  intro i s hwf hr hne
  rw [← offRow_of_not_reserved hr]
  refine ⟨exec_of_ne_fetchState hwf hne, ?_, ?_, ?_⟩
  · rintro (rfl | rfl) <;> exact inState_of_ne hne
  · rintro rfl
    exact exec_txAck_of_ne hne
  · rintro rfl
    exact exec_txNak_of_ne hne

/-! ## The channel that never answers -/

/-- A silent channel leaves a read outstanding, and nothing else changes (rules R188, R207). -/
theorem step_of_silent {s : State} (hq : s.quietHost) (hr : s.request = some .rxRead) (hrx : s.rxIn = Feed.silent) :
    step s = .next { s with outstanding := some .rxRead } := by
  have hp : s.rxIn.pull = (none, s.rxIn) := by rw [hrx, pull_silent]
  exact step_of_works_quiet hq (.awaitsRead hr hp)

/-- Settles O59: each step leads to the state with its read outstanding, which asks the same again. -/
theorem unansweredReadIsStuck : Obligations.UnansweredReadIsStuck := by
  intro s n hq hr hrx
  induction n generalizing s with
  | zero => exact run_succ_of_step (step_of_silent hq hr hrx) 0
  | succ n ih =>
    rw [run_succ_of_step (step_of_silent hq hr hrx)]
    exact ih { s with outstanding := some .rxRead } hq hr hrx

/-! ## Reset -/

section
variable {s : State}

theorem hardReset_rxLog (hno : s.outstanding ≠ some .rxRead) : s.hardReset.rxLog = s.rxLog := by
  unfold State.hardReset State.dropOutstanding
  split
  case h_2 hout => exact absurd hout hno
  all_goals rfl

theorem hardReset_txLog (hno : ∀ b : Byte, s.outstanding ≠ some (.txWrite b)) : s.hardReset.txLog = s.txLog := by
  unfold State.hardReset State.dropOutstanding
  split
  case h_3 b hout => exact absurd hout (hno b)
  all_goals rfl

end

/-- Settles O2: the registers field by field, and the parameters and the CTRL port as the dropped transaction leaves
them. -/
theorem hostResetWritesTheResetColumn : Obligations.HostResetWritesTheResetColumn := by
  intro s hreset
  refine ⟨_, step_of_reset hreset, rfl, rfl, rfl, rfl, rfl, rfl, rfl, rfl, rfl, rfl, rfl, fun i => ?_, ?_, ?_, ?_⟩
  · exact Vector.getElem_replicate i.isLt
  · exact dropOutstanding_outstanding s.hostTaken
  · exact dropOutstanding_params s.hostTaken
  · exact dropOutstanding_hostIn s.hostTaken

/-- Settles O3: the aborted transaction's history gets the dropped entry, and the others stay. -/
theorem resetDropsTheOutstandingTransaction : Obligations.ResetDropsTheOutstandingTransaction := by
  intro s hreset
  have hstep := step_of_reset hreset
  refine ⟨_, hstep, ?_,
    fun b hout => step_records_dropped ⟨hreset, hout⟩ hstep, hardReset_txLog (s := s.hostTaken),
    fun p hout => step_records_dropped ⟨hreset, hout⟩ hstep, hardReset_sinkTrace (s := s.hostTaken)⟩
  split
  · exact step_records_dropped ⟨hreset, ‹_›⟩ hstep
  · exact (hardReset_rxLog (s := s.hostTaken) ‹_›).trans (List.append_nil _).symm

/-! ## `start` -/

theorem takesStart_iff {c : Ctl} : c.takesStart = true ↔ c = .idle ∨ c = .complete ∨ c = .failed := by
  cases c <;> simp [Ctl.takesStart]

/-- In the session that `start` begins, a further `start` is not taken (rule R204). -/
theorem startSession_proceeds {s : State} (hreset : s.startSession.hostSample.reset = false) :
    s.startSession.proceeds := ⟨hreset, Bool.and_false _⟩

/-- Settles O4: `start` makes its writes and no other, and the work of `HS_NAK` is the probe. -/
theorem startBeginsASession : Obligations.StartBeginsASession := by
  intro s hreset hstart hs
  refine ⟨s.hostTaken.startSession, rfl, ?_, fun hnext r f hp => ?_⟩
  · exact step_of_start hreset (Bool.and_eq_true_iff.2 ⟨hstart, takesStart_iff.2 hs⟩)
  · have hprobe := step_of_works (startSession_proceeds hnext) (.probes rfl hp)
    exact ⟨_, hprobe, State.txDone_txLog .., State.txDone_rxLog .., State.txDone_sinkTrace ..⟩

/-- Settles O5: neither port's `start` is taken, so the controller state decides, which is the same after the sample. -/
theorem startIsIgnoredInASession : Obligations.StartIsIgnoredInASession := by
  intro s rest hport hidle hcomplete hfailed
  have htakes : s.state.takesStart = false :=
    Bool.eq_false_iff.2 (mt takesStart_iff.1 (by simp [hidle, hcomplete, hfailed]))
  have hsample : s.hostSample = { reset := false, start := true } := by rw [State.hostSample, hport]; rfl
  have htaken : s.hostTaken = { s with hostIn := rest } := by rw [State.hostTaken, hport]; rfl
  have hq : s.proceeds := by rw [State.proceeds, hsample, htakes]; exact ⟨rfl, rfl⟩
  have hquiet : State.proceeds { s with hostIn := { reset := false, start := false } :: rest } := ⟨rfl, rfl⟩
  rw [step_of_proceeds hq, step_of_proceeds hquiet, htaken]
  rfl

/-! ## `IDLE` -/

/-- Settles O6: `IDLE` rests, and of the two ways out of rest a reset leads back to it. -/
theorem idleWaitsForStart : Obligations.IdleWaitsForStart := by
  intro s hs
  have hrest : s.state = .idle ∨ s.state = .complete ∨ s.state = .failed := .inl hs
  refine ⟨by simp [State.done, hs, Ctl.isTerminal], fun hq => step_of_rest hq hrest, fun t hstep hne => ?_⟩
  have hreset : s.hostSample.reset = false := by
    refine Bool.eq_false_iff.2 fun hr => ?_
    cases hstep.symm.trans (step_of_reset hr)
    exact hne rfl
  obtain ⟨hr, -⟩ | ⟨hstart, -⟩ := step_leaves_rest hrest hstep (by rwa [hs])
  · cases hr.symm.trans hreset
  · exact ⟨hstart, hreset⟩

end Sys2Proof.Machine
end
